-- ==== Sys2Proof/Word.lean ====
section
/-! DEFINITION. The bit-level types of the part: bytes of its stores and lines, audio samples, check values, and the text of the command line. -/

namespace Sys2Proof

/-- One byte of a store, of an image or of a lift line. -/
abbrev Byte := BitVec 8

/-- One live audio sample, 16 bits (R146). -/
abbrev Sample := BitVec 16

/-- The CRC-16 of a command line record (R196). -/
abbrev Crc16 := BitVec 16

/-- The CRC-32 of regime images and clip data (R1). -/
abbrev Crc32 := BitVec 32

/-- A run of characters of the command line. -/
abbrev Text := List Char

end Sys2Proof
end

