-- ==== Sys2Proof/Config.lean ====
section
/-! DEFINITION. The free values: what the spec leaves open and no proof can see. None of them has a body. -/

namespace Sys2Proof

/-- Whether a regime area whose write did not finish reads as BLANK (else as CRC) at the next cold start.
R13 allows exactly these two; the argument is the model's own counter. Log 7. -/
opaque Config.tornReadsBlank : Nat → Bool

/-- Byte `i` of the 16-byte clip header written for a clip: id, block count, data length, data CRC.
R158 names the fields and gives no layout. Log 8. -/
opaque Config.clipHeaderByte (id blocks length : Nat) (crc : Crc32) (i : Nat) : Byte

/-- What clip header, if any, sixteen bytes written by `WRITE` spell: id, data length, data CRC.
R158 gives no layout, so the model cannot say. Log 8. -/
opaque Config.strayHeader : List Byte → Option (Nat × Nat × Crc32)

/-- What the part records for a measured time in ms outside the range 1 to 65 000 of Table 2-2. Log 10. -/
opaque Config.measureOutOfRange : Nat → BitVec 16

/-- The start landing of a car that has never reported a landing (R87). Log 11. -/
opaque Config.unreportedStartLanding : Nat → BitVec 6

/-- The line resistance of a spot measurement for which no reading is given, as when the idle clock takes its deadline. Log 17. -/
opaque Config.spotReading : Nat → BitVec 16

/-- Whether a mean of spot readings that is no whole number is recorded as the next whole number (else the one below). R43 names no
rounding; the argument is the model's own counter. Log 54. -/
opaque Config.meanRoundsUp : Nat → Bool

end Sys2Proof
end

