-- ==== Sys2Proof/Syntax.lean ====
section
/-! DEFINITION. The commands of the part: one constructor for each row of spec/opcode_table.json, with its operands.
A request's operand is the list of its field words as received (R198, R199). -/

namespace Sys2Proof

/-- One character received on the command line (R194). -/
inductive RxChar where
  | char (b : Byte)
  | framingError
  | lineBreak
  deriving DecidableEq, Repr

/-- Motion of a car (Table 4-1). -/
inductive Motion where
  | stopped | up | down
  deriving DecidableEq, Repr

/-- Doors of a car (Table 4-1). -/
inductive Doors where
  | closed | opening | opened | closing
  deriving DecidableEq, Repr

/-- Crew key of a car (Table 4-1). -/
inductive CrewKey where
  | off | on | override
  deriving DecidableEq, Repr

/-- The five fields of a CAR REPORT frame (Table 4-1); a landing of `none` is BETWEEN. -/
structure CarReport where
  landing : Option Nat
  motion : Motion
  doors : Doors
  inService : Bool
  key : CrewKey
  deriving DecidableEq, Repr

/-- The four programmes (Table 6-1). -/
inductive Prog where
  | live | evac | alert | tenant
  deriving DecidableEq, Repr

/-- One point's inputs in a good scan (R103). -/
structure Reading where
  bonded : Bool
  closed : Bool
  deriving DecidableEq, Repr

/-- The commands, in the order of spec/opcode_table.json. Indexes count from 1, landings and floors from 0 (0.6). -/
inductive Instr where
  | coldStart
  | startUpSettleDeadline
  | lineComplete (chars : List RxChar)
  | check
  | unknown
  | replyComplete
  | regimeBegin (fields : List Text)
  | regimeData (fields : List Text)
  | regimeEnd (fields : List Text)
  | regimeWriteEnd (good : Bool)
  | regimeActivate (fields : List Text)
  | regimeQuery (fields : List Text)
  | lineClassChange (ch ohms : Nat)
  | bandAdoption (ch : Nat)
  | risingEdge (ch : Nat)
  | fallingEdge (ch : Nat)
  | holdDeadline (ch : Nat)
  | starveDeadline (ch : Nat)
  | steadyThreshold (ch : Nat)
  | spotDeadline (ch : Nat) (readings : List Nat)
  | chanQuery (fields : List Text)
  | chanclr (fields : List Text)
  | spot (fields : List Text)
  | confirmDeadline (zone : Nat)
  | escalationDeadline (id : Nat)
  | zoneQuery (fields : List Text)
  | isolate (fields : List Text)
  | restore (fields : List Text)
  | accept (fields : List Text)
  | silence (fields : List Text)
  | close (fields : List Text)
  | manual (fields : List Text)
  | incidents (fields : List Text)
  | incidentQuery (fields : List Text)
  | carReport (car : Nat) (report : CarReport)
  | orderTaken (car landing : Nat)
  | orderRefused (car landing reason : Nat)
  | callAsk (car landing : Nat)
  | invalidFrame (car : Nat) (bytes : List Byte)
  | frameGapTimeout (car : Nat)
  | linkDeadline (car : Nat)
  | phaseDeadline (car : Nat)
  | guardSet (fields : List Text)
  | guardClr (fields : List Text)
  | guardQuery (fields : List Text)
  | guardlatch (fields : List Text)
  | carQuery (fields : List Text)
  | goodScan (expander : Nat) (readings : Vector Reading 8)
  | scanMiss (expander : Nat) (heard : Bool)
  | pacingDeadline
  | releaseBondCheck (door : Nat)
  | lockBondCheck (door : Nat)
  | heldOpenDeadline (door : Nat)
  | release (fields : List Text)
  | releaseStair (fields : List Text)
  | lockStair (fields : List Text)
  | doorQuery (fields : List Text)
  | stairQuery (fields : List Text)
  | stepDeadline (prog : Prog)
  | clipReadEnd (prog : Prog)
  | azoneQuery (fields : List Text)
  | progQuery (fields : List Text)
  | tenant (fields : List Text)
  | tenantCancel (fields : List Text)
  | tenantQuery (fields : List Text)
  | blockArrival (samples : List Sample)
  | playoutDeadline
  | liveStart (fields : List Text)
  | liveZones (fields : List Text)
  | liveStop (fields : List Text)
  | liveQuery (fields : List Text)
  | erase (fields : List Text)
  | eraseEnd (good : Bool)
  | storeSettleDeadline
  | write (fields : List Text)
  | writeComplete (good : Bool)
  | commit (fields : List Text)
  | lockblk (fields : List Text)
  | permit (fields : List Text)
  | abort (fields : List Text)
  | storeQuery (fields : List Text)
  | clips (fields : List Text)
  | events (fields : List Text)
  | troubles (fields : List Text)
  | maintOn (fields : List Text)
  | maintOff (fields : List Text)
  | restart (fields : List Text)
  | hello (fields : List Text)
  | modeQuery (fields : List Text)
  | lockDoor (fields : List Text)
  deriving DecidableEq, Repr

end Sys2Proof
end

