-- ==== Sys2Proof/WellFormed.lean ====
section
/-! DEFINITION. Which commands can reach the part at all: indexes and frame fields in range, request fields made of printable characters.
exec never reads this check: a command that fails it finds no record, or is no line, or is a frame that is discarded (R77). -/

namespace Sys2Proof

/-- A character a field word may hold: printable, and neither the space nor the tilde (10.2). -/
def fieldChar (c : Char) : Bool :=
  decide (0x20 < c.toNat) && decide (c.toNat < 0x7F) && c != '~'

/-- Field words as a line can carry them. -/
def fieldsWellFormed (fields : List Text) : Bool :=
  fields.all fun w => w.all fieldChar

/-- `n` lies in `lo` to `hi`. -/
def inRange (lo hi n : Nat) : Bool :=
  decide (lo ≤ n) && decide (n ≤ hi)

/-- The landing of a CAR REPORT: 0 to 63 or BETWEEN (Table 4-1). -/
def CarReport.wellFormed (r : CarReport) : Bool :=
  match r.landing with
  | none => true
  | some l => inRange 0 63 l

/-- The operand ranges of every command (0.6, Table 4-1, R146, R199). -/
def Instr.wellFormed : Instr → Bool
  | .coldStart | .startUpSettleDeadline | .check | .unknown | .replyComplete | .pacingDeadline
  | .playoutDeadline | .storeSettleDeadline | .regimeWriteEnd _ | .eraseEnd _ | .writeComplete _ => true
  | .lineComplete chars => !chars.isEmpty
  | .lineClassChange ch _ | .bandAdoption ch | .risingEdge ch | .fallingEdge ch | .holdDeadline ch
  | .starveDeadline ch | .steadyThreshold ch | .spotDeadline ch _ => inRange 1 24 ch
  | .confirmDeadline z => inRange 1 64 z
  | .escalationDeadline id => inRange 1 255 id
  | .carReport car r => inRange 1 6 car && r.wellFormed
  | .orderTaken car l | .callAsk car l => inRange 1 6 car && inRange 0 63 l
  | .orderRefused car l reason => inRange 1 6 car && inRange 0 63 l && inRange 1 15 reason
  | .invalidFrame car _ | .frameGapTimeout car | .linkDeadline car | .phaseDeadline car => inRange 1 6 car
  | .goodScan e _ | .scanMiss e _ => inRange 1 12 e
  | .releaseBondCheck d | .lockBondCheck d | .heldOpenDeadline d => inRange 1 96 d
  | .stepDeadline p | .clipReadEnd p => p != .live
  | .blockArrival samples => !samples.isEmpty && decide (samples.length ≤ 80)
  | .regimeBegin f | .regimeData f | .regimeEnd f | .regimeActivate f | .regimeQuery f
  | .chanQuery f | .chanclr f | .spot f | .zoneQuery f | .isolate f | .restore f | .accept f
  | .silence f | .close f | .manual f | .incidents f | .incidentQuery f | .guardSet f | .guardClr f
  | .guardQuery f | .guardlatch f | .carQuery f | .release f | .releaseStair f | .lockStair f
  | .doorQuery f | .stairQuery f | .azoneQuery f | .progQuery f | .tenant f | .tenantCancel f
  | .tenantQuery f | .liveStart f | .liveZones f | .liveStop f | .liveQuery f | .erase f | .write f
  | .commit f | .lockblk f | .permit f | .abort f | .storeQuery f | .clips f | .events f
  | .troubles f | .maintOn f | .maintOff f | .restart f | .hello f | .modeQuery f | .lockDoor f =>
    fieldsWellFormed f

end Sys2Proof
end

