-- ==== Sys2Proof/Machine/Regime.lean ====
section
/-! DEFINITION. The contents of a regime as the units read them (chapter 1), and the built-in fallback regime (R14). -/

namespace Sys2Proof.Machine

/-- The three stairs (0.6, R2). -/
inductive Stair where
  | a | b | c
  deriving DecidableEq, Repr

/-- A present floor of the floor map (Table 1-4); `none` is FFh. -/
structure Floor where
  landings : Vector (Option Nat) 2
  audioZone : Option Nat
  doors : Vector (Option Nat) 3
  deriving DecidableEq, Repr

/-- A zone entry (Table 1-5) with its cause-and-effect row; `rest` is ALERT-REST. -/
structure ZoneEntry where
  floors : List Nat
  group : Nat
  confirmSeconds : Nat
  windowSeconds : Nat
  recallAlert : List Nat
  recallEvac : List Nat
  stairsAlert : List Stair
  stairsEvac : List Stair
  above : Nat
  below : Nat
  rest : Bool
  deriving DecidableEq, Repr

/-- A cadence window, or `none` when disabled (R5). -/
abbrev Window := Option (Nat × Nat)

/-- A sense channel map entry (Table 1-6); `zone` is present when the channel is used. -/
structure ChanEntry where
  zone : Option Nat
  alert : Window
  evac : Window
  tolerance : Nat
  deriving DecidableEq, Repr

/-- A group entry (R6). -/
structure GroupEntry where
  home : Nat
  alternate : Option Nat
  deriving DecidableEq, Repr

/-- A present door point's entry (Table 1-7). -/
structure DoorEntry where
  stair : Stair
  floor : Option Nat
  reentry : Bool
  heldSeconds : Nat
  deriving DecidableEq, Repr

/-- A tone entry (R9); a frequency of 0 is absent. -/
structure Tone where
  freq1 : Nat
  freq2 : Nat
  onMs : Nat
  offMs : Nat
  deriving DecidableEq, Repr

/-- A script step (Table 1-8, Table 6-4). -/
inductive Step where
  | tone (number ms : Nat)
  | clip (id : Nat)
  | gap (ms : Nat)
  deriving DecidableEq, Repr

/-- A script (R10); `repeats` of 0 is for ever. -/
structure Script where
  steps : List Step
  repeats : Nat
  deriving DecidableEq, Repr

/-- The OPTIONS section (R11). -/
structure Options where
  fallbackTone : Nat
  liveKill : Bool
  steadyMs : Nat
  holdMs : Nat
  deriving DecidableEq, Repr

/-- A regime: what R3 to R11 give every unit. An absent floor, zone, car, group or door point is `none`. -/
structure Regime where
  number : Nat
  format : Nat
  floors : Vector (Option Floor) 64
  zones : Vector (Option ZoneEntry) 64
  channels : Vector ChanEntry 24
  cars : Vector (Option Nat) 6
  groups : Vector (Option GroupEntry) 2
  doors : Vector (Option DoorEntry) 96
  azones : Vector Bool 48
  tones : Vector Tone 8
  evac : Script
  alert : Script
  options : Options
  deriving DecidableEq, Repr

/-- The step of both fallback scripts (Table 1-10). -/
def fallbackScript : Script := ⟨[.tone 1 10000], 0⟩

/-- Zone entry n of the fallback regime (Table 1-10). -/
def fallbackZone : ZoneEntry :=
  { floors := [], group := 1, confirmSeconds := 2, windowSeconds := 120
    recallAlert := [1, 2], recallEvac := [1, 2]
    stairsAlert := [.a, .b, .c], stairsEvac := [.a, .b, .c]
    above := 0, below := 0, rest := true }

/-- The built-in fallback regime (R14, Table 1-10). Its format number is the only one the part has. DEDUCED, log 21. -/
def fallbackRegime : Regime :=
  { number := 0
    format := 1
    floors := Vector.replicate 64 none
    zones := Vector.ofFn fun i => if i.val < 24 then some fallbackZone else none
    channels := Vector.ofFn fun i => ⟨some (i.val + 1), none, some (50, 5000), 10⟩
    cars := Vector.replicate 6 (some 1)
    groups := #v[some ⟨0, none⟩, none]
    doors := Vector.replicate 96 (some ⟨.a, none, true, 120⟩)
    azones := Vector.replicate 48 true
    tones := Vector.ofFn fun i => if i.val = 0 then ⟨1000, 0, 500, 500⟩ else ⟨0, 0, 100, 0⟩
    evac := fallbackScript
    alert := fallbackScript
    options := ⟨1, true, 2000, 1500⟩ }

end Sys2Proof.Machine
end

