-- ==== Sys2Proof/Machine/Records.lean ====
section
/-! DEFINITION. The records the eleven units keep, field by field as their chapters table them, with their cold-start values. -/

namespace Sys2Proof.Machine

/-! ### Report fields (R200, R201) -/

/-- One value of a reply or event line. -/
inductive Atom where
  | hyphen
  | word (w : String)
  | text (t : Text)
  | num (n : Nat)
  | time (ms : Nat)
  | hex (digits n : Nat)
  | range (a b : Nat)
  deriving DecidableEq, Repr

/-- One field of a line: parts joined by slashes, each a comma list of atoms (R68, R200, R201). -/
abbrev Field := List (List Atom)

/-- The words of one line the part sends, before its check (R196, R200). -/
abbrev SentLine := List Field

/-! ### Events and troubles (chapter 9) -/

/-- Event classes (Table 9-1). -/
inductive EventClass where
  | fire | fireFault | trouble | status
  deriving DecidableEq, Repr

/-- Event kinds (Table 9-5). -/
inductive EventKind where
  | zoneAlarm | incidentOpened | zoneJoined | severityRaised | escalated | incidentResounded
  | guardViolation | clipMissing | troubleOn | troubleOff | doorForced | eraseFailed | writeFailed
  | zoneConfirming | zoneCleared | zoneIsolated | zoneRestored | incidentAccepted | incidentSilenced
  | incidentClosed | cadenceChanged | spotDone | carService | carRetargeted | crewKeyIgnored
  | callCancelled | doorSecured | heldOpen | heldCleared | programmeState | tenantStarted | tenantDone
  | liveState | eraseSuspended | eraseResumed | eraseDone | eraseAborted | clipCommitted
  | regimeWritten | regimeActivated | modeChanged | started
  deriving DecidableEq, Repr

/-- Sources of events and troubles (Table 9-2). -/
inductive Source where
  | control | regime | store | live
  | chan (n : Nat) | zone (n : Nat) | incident (n : Nat) | car (n : Nat) | door (n : Nat)
  | expander (n : Nat) | prog (n : Nat) | ticket (n : Nat)
  deriving DecidableEq, Repr

/-- An event record (Table 9-2). Its gap field is set at delivery only (R178, R181), so the queue holds none. -/
structure Event where
  cls : EventClass
  kind : EventKind
  time : Nat
  source : Source
  fields : List Field
  deriving DecidableEq, Repr

/-- Trouble kinds, in rank order (Table 9-3). -/
inductive TroubleKind where
  | regimeFallback | regimeWriteFailed | doorFaultRelease | doorFaultLock | liftOut | liftLost
  | expanderLost | channelShort | channelOpen | cadenceUnknown | meterStarved | liveKilled
  deriving DecidableEq, Repr

/-- A standing kind of a trouble entry (R183); a detail of `none` is a kind without detail. -/
structure Standing where
  kind : TroubleKind
  cls : EventClass
  detail : Option (List Atom)
  time : Nat
  deriving DecidableEq, Repr

/-- A trouble list entry (R183). -/
structure TroubleEntry where
  source : Source
  kinds : List Standing
  deriving DecidableEq, Repr

/-- The event unit (chapter 9). -/
structure EventUnit where
  queue : List Event
  gap : Bool
  troubles : List TroubleEntry
  deriving DecidableEq, Repr

/-! ### Line interface (chapter 10) -/

/-- A complete line in the input buffer (R195): well formed, with its text before the tilde and its check value, or damaged. -/
inductive BufLine where
  | formed (body : Text) (check : Crc16)
  | damaged
  deriving DecidableEq, Repr

/-- A reply in progress: the EV lines of an EVENTS request, then the reply line (R181, R200). -/
structure Reply where
  events : List SentLine
  line : SentLine
  deriving DecidableEq, Repr

/-- The line interface (R204). `sent` is what the last arrival sent complete, the command transmit output. Log 29. -/
structure LineIf where
  rx : List RxChar
  rxMore : Bool
  buffer : List BufLine
  overrun : Bool
  reply : Option Reply
  sent : List SentLine
  deriving DecidableEq, Repr

/-! ### Control and regime unit -/

/-- The modes (R187). -/
inductive Mode where
  | starting | normal | maintenance
  deriving DecidableEq, Repr

/-- The mode record (R187). -/
structure Control where
  mode : Mode
  fallback : Bool
  uptime : Nat
  settle : Option Nat
  deriving DecidableEq, Repr

/-- Section keywords (Table 1-3) and HEADER (R12). -/
inductive SectionName where
  | header | floors | zones | channels | lifts | doors | azones | tones | scripts | options
  deriving DecidableEq, Repr

/-- Results of the cold-start load (R13). -/
inductive ColdResult where
  | ok | blank | crc
  | bad (name : SectionName) (entry : Nat)
  deriving DecidableEq, Repr

/-- Load states (Table 1-11). -/
inductive LoadState where
  | idle | receiving | writing | written | writeFailed
  deriving DecidableEq, Repr

/-- A byte store: the listed cells, addresses rising, none equal to what an unlisted address reads as. -/
abbrev Mem := List (Nat × Byte)

/-- The regime unit (chapter 1). `torn` marks a regime area whose write has not completed (R13, R19). -/
structure RegimeUnit where
  active : Regime
  area : Mem
  torn : Bool
  staging : Mem
  load : LoadState
  stagedLength : Option Nat
  writtenNumber : Option Nat
  writeStarted : Option Nat
  coldResult : ColdResult
  deriving DecidableEq, Repr

/-! ### Sense unit (chapter 2) -/

/-- Line classes (Table 2-1). -/
inductive LineClass where
  | shorted | normal | opened
  deriving DecidableEq, Repr

/-- Uses of a cadence meter (Table 2-2). -/
inductive MeterUse where
  | cadence | spot
  deriving DecidableEq, Repr

/-- Meter binding with its use (Table 2-2). -/
inductive Binding where
  | unbound
  | waiting
  | bound (meter : Nat) (use : MeterUse)
  deriving DecidableEq, Repr

/-- Lock states with the locked period (Table 2-3). -/
inductive Lock where
  | unlocked
  | locked (period : Nat)
  | steady
  deriving DecidableEq, Repr

/-- Channel signals (Table 2-4). -/
inductive Signal where
  | none | alert | evac | evacUnmetered | evacUnknown
  deriving DecidableEq, Repr

/-- A spot result (Table 2-2): `some ohms` with outcome DONE and drive seen no, `none` with outcome ABORTED and drive seen yes (R43, R44). -/
structure SpotResult where
  ohms : Option Nat
  deriving DecidableEq, Repr

/-- A sense channel record (Table 2-2). `band` of `none` is UNSETTLED. The hold deadline and the steady timing are kept by
their starting times, because a changed hold or threshold applies to timings already running (R22). -/
structure Chan where
  drive : Bool
  band : Option LineClass
  candidate : Option (LineClass × Nat)
  driven : Bool
  holdFrom : Option Nat
  binding : Binding
  starve : Option Nat
  spotDeadline : Option Nat
  lock : Lock
  run : List Nat
  lastRise : Option Nat
  steadyFrom : Option Nat
  lastPeriod : Option Nat
  lastOnTime : Option Nat
  signal : Signal
  changed : Bool
  spot : Option SpotResult
  deriving DecidableEq, Repr

/-- The cold-start value of a channel record (Table 2-2). -/
def Chan.cold : Chan :=
  { drive := false, band := none, candidate := none, driven := false, holdFrom := none
    binding := .unbound, starve := none, spotDeadline := none, lock := .unlocked, run := []
    lastRise := none, steadyFrom := none, lastPeriod := none, lastOnTime := none
    signal := .none, changed := false, spot := none }

/-- The sense unit: channel records and the meter-wait queue (R26, R31). The four meters' state is their channels' bindings. -/
structure Sense where
  chans : Vector Chan 24
  queue : List Nat
  deriving DecidableEq, Repr

/-! ### Incident engine (chapter 3) -/

/-- Zone states (Table 3-2). -/
inductive ZoneState where
  | normal | confirming | alarm | trouble | isolated
  deriving DecidableEq, Repr

/-- Zone signals, weakest first (R46). -/
inductive ZoneSignal where
  | none | alert | evac
  deriving DecidableEq, Repr

/-- Zone levels (Table 3-1). -/
inductive Level where
  | alert | evac
  deriving DecidableEq, Repr

/-- A zone record (Table 3-1). -/
structure Zone where
  state : ZoneState
  signal : ZoneSignal
  lineFault : Bool
  level : Option Level
  confirm : Option Nat
  incident : Option Nat
  enteredAt : Nat
  deriving DecidableEq, Repr

/-- The cold-start value of a zone record (Table 3-1). -/
def Zone.cold : Zone :=
  { state := .normal, signal := .none, lineFault := false, level := none, confirm := none
    incident := none, enteredAt := 0 }

/-- Origin of an incident (Table 3-3). -/
inductive Origin where
  | zone (z : Nat)
  | manual
  deriving DecidableEq, Repr

/-- Operator states of an incident (Table 3-3). -/
inductive IncidentState where
  | unaccepted | accepted | silenced
  deriving DecidableEq, Repr

/-- Severities (Table 3-3). -/
inductive Severity where
  | alert | evacuate
  deriving DecidableEq, Repr

/-- A member entry (Table 3-3). -/
structure Member where
  zone : Nat
  joinedAt : Nat
  merged : Bool
  deriving DecidableEq, Repr

/-- An open incident (Table 3-3). -/
structure Incident where
  id : Nat
  origin : Origin
  state : IncidentState
  severity : Severity
  members : List Member
  openedAt : Nat
  acceptedAt : Option Nat
  escalation : Option Nat
  deriving DecidableEq, Repr

/-- Released states of a stair (Table 3-5). -/
inductive StairRelease where
  | none | reentry | full
  deriving DecidableEq, Repr

/-- Audio claims, weakest first (Table 3-5). -/
inductive Claim where
  | none | alert | evac
  deriving DecidableEq, Repr

/-- The building demand (Table 3-5). `freeze` is both store freeze and tenant stop's cause; the two are kept apart as the table does. -/
structure Demand where
  recallGroups : List Nat
  stairA : StairRelease
  stairB : StairRelease
  stairC : StairRelease
  guardFloors : List Nat
  claims : Vector Claim 48
  freeze : Bool
  tenantStop : Bool
  deriving DecidableEq, Repr

/-- The demand of an empty table (Table 3-5). -/
def Demand.empty : Demand :=
  { recallGroups := [], stairA := .none, stairB := .none, stairC := .none, guardFloors := []
    claims := Vector.replicate 48 .none, freeze := false, tenantStop := false }

/-- The incident engine (chapter 3). -/
structure FireUnit where
  zones : Vector (Option Zone) 64
  incidents : List Incident
  nextId : Nat
  demand : Demand
  deriving DecidableEq, Repr

/-! ### Lift unit (chapter 4) -/

/-- Car services (Table 4-3). -/
inductive Service where
  | tenant | recalling | homed | crew | out
  deriving DecidableEq, Repr

/-- Recall phases (Table 4-4). -/
inductive Phase where
  | sent | taken | travelling | arrived
  deriving DecidableEq, Repr

/-- Abort codes (Table 4-5). -/
inductive AbortCode where
  | noTake | refused | noStart | noArrive | wrongLanding | noDoors | carFault | linkLost | noSafeLanding
  deriving DecidableEq, Repr

/-- The last abort of a car (Table 4-2). -/
structure LastAbort where
  code : AbortCode
  reason : Option Nat
  landing : Option Nat
  time : Nat
  deriving DecidableEq, Repr

/-- A car record (Table 4-2). `report` holds the five reported fields once reported; `reportAt` is its uptime (R88). `late` is the old target at which
the arrival report of a re-targeted car may still come, while its phase is SENT (R94; log 61). -/
structure Car where
  linkUp : Bool
  linkDeadline : Option Nat
  service : Service
  report : Option CarReport
  reportAt : Nat
  lastLanding : Option Nat
  target : Option Nat
  phase : Option Phase
  late : Option Nat
  startLanding : Option Nat
  phaseDeadline : Option Nat
  calls : List Nat
  keyIgnored : Bool
  lastAbort : Option LastAbort
  deriving DecidableEq, Repr

/-- A car record that starts at uptime `now`: at cold start or when the car becomes present (R79, R80, R23). -/
def Car.fresh (now : Nat) : Car :=
  { linkUp := false, linkDeadline := some (now + 1000), service := .tenant, report := none, reportAt := 0
    lastLanding := none, target := none, phase := none, late := none, startLanding := none, phaseDeadline := none
    calls := [], keyIgnored := false, lastAbort := none }

/-- The marks of a floor in the guard table (R81). -/
structure Guard where
  incident : Bool
  host : Bool
  watch : Bool
  deriving DecidableEq, Repr

/-- A floor without marks. -/
def Guard.clear : Guard := ⟨false, false, false⟩

/-- Kinds of guard violation (R101). -/
inductive ViolationKind where
  | deniedNoStop | watched | doorsAtNoStop
  deriving DecidableEq, Repr

/-- The record of the violation latch (R101). -/
structure Violation where
  car : Nat
  landing : Nat
  kind : ViolationKind
  time : Nat
  deriving DecidableEq, Repr

/-- Reasons of a CALL DENY (Table 4-1). -/
inductive DenyReason where
  | notServed | noStop | full | notCrew
  deriving DecidableEq, Repr

/-- Frames from the part to an adapter (Table 4-1). -/
inductive PartFrame where
  | recallTo (landing : Nat)
  | cancelRecall
  | release
  | holdDoors
  | callGrant (landing : Nat)
  | callDeny (landing : Nat) (reason : DenyReason)
  | callCancel (landing : Nat)
  | callCancelAll
  deriving DecidableEq, Repr

/-- The lift unit (chapter 4). `rx` is each lift line's partial frame, empty when hunting (R202); `sent` the frames the last arrival
sent, with their cars. Log 29. -/
structure LiftUnit where
  cars : Vector (Option Car) 6
  guards : Vector Guard 64
  latch : Option Violation
  rx : Vector (List Byte) 6
  sent : List (Nat × PartFrame)
  deriving DecidableEq, Repr

/-! ### Door unit (chapter 5) -/

/-- Lock commands (Table 5-1). -/
inductive LockCommand where
  | lock | release
  deriving DecidableEq, Repr

/-- Door point states (Table 5-2). -/
inductive DoorState where
  | secure | forced | released | closeWait | relockWait | locking | faultLock | faultRelease | noScan
  deriving DecidableEq, Repr

/-- A bond check (Table 5-1): its kind is the command it checks; the deadline is present once a good scan has written the command. -/
structure BondCheck where
  kind : LockCommand
  deadline : Option Nat
  deriving DecidableEq, Repr

/-- A door point record (Table 5-1). -/
structure DoorPoint where
  command : LockCommand
  bonded : Option Bool
  closed : Option Bool
  state : DoorState
  hostRelease : Bool
  check : Option BondCheck
  openSince : Option Nat
  heldDeadline : Option Nat
  heldFlag : Bool
  deriving DecidableEq, Repr

/-- The cold-start value of a door point record (Table 5-1, R117). -/
def DoorPoint.cold : DoorPoint :=
  { command := .release, bonded := none, closed := none, state := .released, hostRelease := false
    check := none, openSince := none, heldDeadline := none, heldFlag := false }

/-- An expander: presence and miss count (R103), and the HJ-608's own lock outputs with the uptime of the last scan it received (R104). -/
structure Expander where
  up : Bool
  misses : Nat
  held : Vector LockCommand 8
  lastHeard : Option Nat
  deriving DecidableEq, Repr

/-- The cold-start value of an expander (R103, R104). -/
def Expander.cold : Expander := ⟨true, 0, Vector.replicate 8 .release, none⟩

/-- The door unit (chapter 5). -/
structure DoorUnit where
  points : Vector (Option DoorPoint) 96
  queue : List Nat
  expanders : Vector Expander 12
  pacing : Nat
  deriving DecidableEq, Repr

/-! ### Announcement unit (chapter 6) -/

/-- Programme states (Table 6-3). -/
inductive ProgState where
  | idle | playing | heldSilent
  deriving DecidableEq, Repr

/-- Clip read of a programme (Table 6-2): the stage, the clip and its bank (absent for a clip that was not in the directory);
STREAMING keeps when the first data came and the data length (R130). -/
inductive ClipRead where
  | waiting (clip bank : Nat)
  | streaming (clip bank start length : Nat)
  | substituted (clip : Nat) (bank : Option Nat)
  deriving DecidableEq, Repr

/-- A programme record (Table 6-2). `voice` is the tone the programme's voice took at the step's start or the substitution, with that uptime;
`stepTone` the fallback tone a CLIP step took at its start (R126, R127). -/
structure ProgRec where
  state : ProgState
  claims : List Nat
  step : Option Nat
  pass : Option Nat
  stepAt : Option Nat
  deadline : Option Nat
  read : Option ClipRead
  voice : Option (Tone × Nat)
  stepTone : Option Tone
  missing : List Nat
  deriving DecidableEq, Repr

/-- The cold-start value of a programme record (Table 6-2). -/
def ProgRec.cold : ProgRec :=
  { state := .idle, claims := [], step := none, pass := none, stepAt := none, deadline := none
    read := none, voice := none, stepTone := none, missing := [] }

/-- An audio zone record (R133). -/
structure AudioZone where
  holder : Option Prog
  previous : Option Prog
  preempted : Bool
  heldSince : Nat
  deriving DecidableEq, Repr

/-- The cold-start value of an audio zone record (R133). -/
def AudioZone.cold : AudioZone := ⟨none, none, false, 0⟩

/-- A tenant announcement (Table 6-4). -/
structure Announcement where
  ticket : Nat
  zones : List Nat
  script : Script
  enteredAt : Nat
  startedAt : Option Nat
  deriving DecidableEq, Repr

/-- The announcement unit (chapter 6). -/
structure AnnUnit where
  live : ProgRec
  evac : ProgRec
  alert : ProgRec
  tenant : ProgRec
  zones : Vector AudioZone 48
  playing : Option Announcement
  queue : List Announcement
  nextTicket : Nat
  deriving DecidableEq, Repr

/-! ### Live page input (chapter 7) -/

/-- Live states (Table 7-1). -/
inductive LiveState where
  | off | prefill | running | killed
  deriving DecidableEq, Repr

/-- An audio block: 80 samples (R146). -/
abbrev Block := List Sample

/-- The live record (Table 7-2) and the block in gathering (R146). -/
structure LivePage where
  state : LiveState
  zones : Option (List Nat)
  fifo : List Block
  playing : Option Block
  playout : Option Nat
  startedAt : Option Nat
  resyncs : Nat
  history : List Nat
  gathering : List Sample
  deriving DecidableEq, Repr

/-- The cold-start value of the live record (Table 7-2, R146). -/
def LivePage.cold : LivePage :=
  { state := .off, zones := none, fifo := [], playing := none, playout := none, startedAt := none
    resyncs := 0, history := [], gathering := [] }

/-! ### Clip store (chapter 8) -/

/-- The fields of a clip header the part wrote at `COMMIT` (R158). Its mark and its own CRC are the header's being there at all. -/
structure ClipHeader where
  id : Nat
  length : Nat
  crc : Crc32
  deriving DecidableEq, Repr

/-- A store block's nonvolatile fields (R157), and the clip header in its bytes 0 to 15, if the part wrote one. -/
structure StoreBlock where
  locked : Bool
  sound : Bool
  header : Option ClipHeader
  deriving DecidableEq, Repr

/-- A block of a new part (R157). -/
def StoreBlock.blank : StoreBlock := ⟨false, true, none⟩

/-- A clip directory entry (R159). The block count is the one R158 gives for the length. -/
structure DirEntry where
  id : Nat
  bank : Nat
  first : Nat
  length : Nat
  crc : Crc32
  deriving DecidableEq, Repr

/-- Causes of a suspension (Table 8-1). -/
inductive SuspendCause where
  | read | start | freeze
  deriving DecidableEq, Repr

/-- What a write in flight writes (R165, R167). -/
inductive WriteJob where
  | data (bank block offset : Nat) (bytes : List Byte)
  | header (entry : DirEntry)
  | regime
  deriving DecidableEq, Repr

/-- An erase in flight (Table 8-1): target, started-at, read suspensions; the erasing time so far and the start of the present spell of
erasing (R164, R174). -/
structure EraseJob where
  bank : Nat
  block : Nat
  startedAt : Nat
  reads : Nat
  erased : Nat
  since : Nat
  deriving DecidableEq, Repr

/-- Store engine states with the fields present in each (Table 8-1, Table 8-2). -/
inductive Engine where
  | ready
  | erasing (job : EraseJob)
  | suspended (job : EraseJob) (cause : SuspendCause) (settle : Option Nat)
  | writing (job : WriteJob)
  deriving DecidableEq, Repr

/-- Last store errors (Table 8-1). -/
inductive StoreError where
  | none | eraseFailed | writeFailed | aborted
  deriving DecidableEq, Repr

/-- Stages of a read in progress (R170). -/
inductive ReadStage where
  | waitingWrite | waitingSettle | delivering
  deriving DecidableEq, Repr

/-- A read in progress (R170). -/
structure StoreRead where
  prog : Prog
  clip : Nat
  bank : Nat
  stage : ReadStage
  deriving DecidableEq, Repr

/-- The clip store (chapter 8). -/
structure ClipStore where
  blocks : Vector StoreBlock 32
  bytes : Mem
  directory : List DirEntry
  engine : Engine
  permit : Bool
  lastError : StoreError
  reads : List StoreRead
  deriving DecidableEq, Repr

end Sys2Proof.Machine
end

