-- ==== Sys2Proof/Machine/State.lean ====
section
/-! DEFINITION. The state of the part: its eleven units, the commands that wait, and the part right after reset. -/

namespace Sys2Proof.Machine

/-- Everything the spec gives the part (Table 0-1), one field for each unit; `pending` holds the commands not yet taken, first in,
first out; `freeCount` is the model's own counter that the free values are applied to (log 31). -/
structure State where
  line : LineIf
  control : Control
  regime : RegimeUnit
  sense : Sense
  fire : FireUnit
  lift : LiftUnit
  door : DoorUnit
  ann : AnnUnit
  live : LivePage
  store : ClipStore
  event : EventUnit
  pending : List Instr
  freeCount : Nat
  deriving DecidableEq, Repr

/-- The spec names no fault that stops the part, so nothing raises one. -/
inductive Fault
  deriving DecidableEq, Repr

/-- Why a command has no meaning here. No command raises one. -/
inductive Refusal where
  /-- A command the model gives no meaning; raised by no arm of exec. Safe: the run stops and shows no state. -/
  | notModelled (mnemonic : String)
  deriving DecidableEq, Repr

/-- The trouble of a part that runs on the fallback regime because its regime area is blank (R13, R184). -/
def blankFallback : Standing :=
  { kind := .regimeFallback, cls := .fireFault, detail := some [.word "BLANK"], time := 0 }

/-- The line interface at cold start (R204). -/
def LineIf.cold : LineIf :=
  { rx := [], rxMore := false, buffer := [], overrun := false, reply := none, sent := [] }

/-- The lift unit at cold start, for the cars of a regime (R79, R80). -/
def LiftUnit.cold (r : Regime) : LiftUnit :=
  { cars := r.cars.map fun c => c.map fun _ => Car.fresh 0
    guards := Vector.replicate 64 Guard.clear
    latch := none
    rx := Vector.replicate 6 []
    sent := [] }

/-- The door unit at cold start, for the door points of a regime (R103, R117). -/
def DoorUnit.cold (r : Regime) : DoorUnit :=
  { points := r.doors.map fun d => d.map fun _ => DoorPoint.cold
    queue := []
    expanders := Vector.replicate 12 Expander.cold
    pacing := 0 }

/-- The announcement unit at cold start (R122, R133, R139). -/
def AnnUnit.cold : AnnUnit :=
  { live := ProgRec.cold, evac := ProgRec.cold, alert := ProgRec.cold, tenant := ProgRec.cold
    zones := Vector.replicate 48 AudioZone.cold
    playing := none, queue := [], nextTicket := 1 }

/-- The incident engine at cold start, for the zones of a regime (R48, R57, R70). -/
def FireUnit.cold (r : Regime) : FireUnit :=
  { zones := r.zones.map fun z => z.map fun _ => Zone.cold
    incidents := [], nextId := 1, demand := Demand.empty }

/-- The sense unit at cold start (R26, R31). -/
def Sense.cold : Sense := ⟨Vector.replicate 24 Chan.cold, []⟩

/-- The part right after reset: a new part (log 6) at its first cold start, after the loading of R189. -/
def State.reset : State :=
  { line := LineIf.cold
    control := { mode := .starting, fallback := true, uptime := 0, settle := some 10000 }
    regime := { active := fallbackRegime, area := [], torn := false, staging := [], load := .idle
                stagedLength := none, writtenNumber := none, writeStarted := none, coldResult := .blank }
    sense := Sense.cold
    fire := FireUnit.cold fallbackRegime
    lift := LiftUnit.cold fallbackRegime
    door := DoorUnit.cold fallbackRegime
    ann := AnnUnit.cold
    live := LivePage.cold
    store := { blocks := Vector.replicate 32 StoreBlock.blank, bytes := [], directory := [], engine := .ready
               permit := false, lastError := .none, reads := [] }
    event := { queue := [{ cls := .fireFault, kind := .troubleOn, time := 0, source := .regime
                           fields := [[[.word "REGIME-FALLBACK"]], [[.word "BLANK"]]] }]
               gap := false
               troubles := [{ source := .regime, kinds := [blankFallback] }] }
    pending := []
    freeCount := 0 }

end Sys2Proof.Machine
end

