-- ==== Sys2Proof/Machine/Ops.lean ====
section
/-! DEFINITION. The shared operations: numbered tables, byte stores, check codes, the event queue and the trouble list. -/

namespace Sys2Proof.Machine

/-! ### Tables counted from 1 (0.6) -/

/-- Item `n` of a table counted from 1. -/
def at1 {α : Type} {k : Nat} (v : Vector α k) (n : Nat) : Option α :=
  if n = 0 then none else v[n - 1]?

/-- The table with item `n`, counted from 1, replaced; unchanged when there is no item `n`. -/
def put1 {α : Type} {k : Nat} (v : Vector α k) (n : Nat) (a : α) : Vector α k :=
  if n = 0 then v else v.setIfInBounds (n - 1) a

/-- The record `n` of a table whose absent records are `none`. -/
def rec1 {α : Type} {k : Nat} (v : Vector (Option α) k) (n : Nat) : Option α :=
  (at1 v n).join

/-- The numbers `lo` to `hi`, both included. -/
def span (lo hi : Nat) : List Nat :=
  (List.range (hi + 1 - lo)).map (· + lo)

/-- Whether a deadline is present and has been reached (0.6). -/
def due (now : Nat) (deadline : Option Nat) : Bool :=
  match deadline with
  | none => false
  | some d => decide (d ≤ now)

/-- The least and the greatest of a list of numbers. -/
def least : List Nat → Option Nat
  | [] => none
  | n :: ns => some (ns.foldl min n)

/-- The greatest of a list of numbers. -/
def greatest : List Nat → Option Nat
  | [] => none
  | n :: ns => some (ns.foldl max n)

/-- The k-th number counted upward from `start`, wrapping from 255 to 1 (R57, R139). -/
def wrapFrom (start k : Nat) : Nat := (start - 1 + k) % 255 + 1

/-- The first number from `start`, wrapping from 255 to 1, that is not in use (R57, R139). -/
def firstFree (start : Nat) (used : List Nat) : Nat :=
  (((List.range 255).map (wrapFrom start)).find? fun n => !used.contains n).getD start

/-- The number after one, wrapping from 255 to 1 (R57, R139). -/
def nextOf (n : Nat) : Nat := wrapFrom n 1

/-! ### Byte stores -/

/-- The byte at an address; an unlisted address reads as `blank`. -/
def Mem.read (blank : Byte) : Mem → Nat → Byte
  | [], _ => blank
  | (a, b) :: m, x => if x = a then b else if x < a then blank else Mem.read blank m x

/-- The store with the byte at one address replaced, in canonical form. -/
def Mem.write (blank : Byte) : Mem → Nat → Byte → Mem
  | [], x, v => if v = blank then [] else [(x, v)]
  | (a, b) :: m, x, v =>
    if x = a then (if v = blank then m else (a, v) :: m)
    else if x < a then (if v = blank then (a, b) :: m else (x, v) :: (a, b) :: m)
    else (a, b) :: Mem.write blank m x v

/-- The store with bytes put at successive addresses. -/
def Mem.writeAll (blank : Byte) : Mem → Nat → List Byte → Mem
  | m, _, [] => m
  | m, x, v :: vs => Mem.writeAll blank (Mem.write blank m x v) (x + 1) vs

/-- `len` bytes from address `x`, of a store whose cells below `x` have been dropped. -/
def Mem.walk (blank : Byte) : Nat → Nat → Mem → List Byte
  | 0, _, _ => []
  | len + 1, x, [] => blank :: Mem.walk blank len (x + 1) []
  | len + 1, x, (a, b) :: m =>
    if a = x then b :: Mem.walk blank len (x + 1) m
    else blank :: Mem.walk blank len (x + 1) ((a, b) :: m)

/-- The `len` bytes from address `x`. -/
def Mem.slice (blank : Byte) (m : Mem) (x len : Nat) : List Byte :=
  Mem.walk blank len x (m.dropWhile fun c => c.1 < x)

/-- The store with `len` addresses from `x` erased. -/
def Mem.erase (m : Mem) (x len : Nat) : Mem :=
  m.filter fun c => c.1 < x || x + len ≤ c.1

/-- The canonical cells of bytes laid from address `x`. -/
def Mem.ofBytes (blank : Byte) : Nat → List Byte → Mem
  | _, [] => []
  | x, v :: vs => if v = blank then Mem.ofBytes blank (x + 1) vs else (x, v) :: Mem.ofBytes blank (x + 1) vs

/-- Addresses strictly rising from at least `x`, and no byte equal to `blank`. -/
def Mem.wfFrom (blank : Byte) : Nat → Mem → Bool
  | _, [] => true
  | x, (a, b) :: m => decide (x ≤ a) && b != blank && Mem.wfFrom blank (a + 1) m

/-- The canonical form of a byte store. -/
def Mem.wf (blank : Byte) (m : Mem) : Bool := Mem.wfFrom blank 0 m

/-- What an erased nonvolatile byte reads as (R13, R157). -/
def erasedByte : Byte := 0xFF

/-- What a staging byte never written reads as (R16, R17). -/
def stagedByte : Byte := 0

/-! ### Check codes -/

/-- One shift of the CRC-32 register, least significant bit first (R1). -/
def crc32Shift (c : Crc32) : Crc32 :=
  if c &&& 1 = 1 then (c >>> 1) ^^^ 0xEDB88320 else c >>> 1

/-- The CRC-32 register after one more byte: eight shifts. -/
def crc32Byte (c : Crc32) (b : Byte) : Crc32 :=
  Nat.repeat crc32Shift 8 (c ^^^ b.setWidth 32)

/-- The CRC-32 of regime images and clip data (R1). -/
def crc32 (bytes : List Byte) : Crc32 :=
  bytes.foldl crc32Byte 0xFFFFFFFF ^^^ 0xFFFFFFFF

/-- One shift of the CRC-16 register, most significant bit first (R196). -/
def crc16Shift (c : Crc16) : Crc16 :=
  if c &&& 0x8000 = 0x8000 then (c <<< 1) ^^^ 0x1021 else c <<< 1

/-- The CRC-16 register after one more character: eight shifts. -/
def crc16Char (c : Crc16) (x : Char) : Crc16 :=
  Nat.repeat crc16Shift 8 (c ^^^ BitVec.ofNat 16 (x.toNat * 256))

/-- The line check of a line's text (R196). -/
def crc16 (t : Text) : Crc16 :=
  t.foldl crc16Char 0xFFFF

/-! ### Names and orders of events and troubles (chapter 9) -/

/-- The number of a class (Table 9-1). -/
def EventClass.num : EventClass → Nat
  | .fire => 1 | .fireFault => 2 | .trouble => 3 | .status => 4

/-- The class of a kind that always has the same one (Table 9-5). The others are raised with `raiseAs`. -/
def EventKind.cls : EventKind → EventClass
  | .zoneAlarm | .incidentOpened | .zoneJoined | .severityRaised | .escalated | .incidentResounded => .fire
  | .guardViolation => .fireFault
  | .clipMissing | .troubleOn | .troubleOff | .doorForced | .eraseFailed | .writeFailed => .trouble
  | _ => .status

/-- The keyword of a kind (Table 9-5). -/
def EventKind.name : EventKind → String
  | .zoneAlarm => "ZONE-ALARM" | .incidentOpened => "INCIDENT-OPENED" | .zoneJoined => "ZONE-JOINED"
  | .severityRaised => "SEVERITY-RAISED" | .escalated => "ESCALATED" | .incidentResounded => "INCIDENT-RESOUNDED"
  | .guardViolation => "GUARD-VIOLATION" | .clipMissing => "CLIP-MISSING" | .troubleOn => "TROUBLE-ON"
  | .troubleOff => "TROUBLE-OFF" | .doorForced => "DOOR-FORCED" | .eraseFailed => "ERASE-FAILED"
  | .writeFailed => "WRITE-FAILED" | .zoneConfirming => "ZONE-CONFIRMING" | .zoneCleared => "ZONE-CLEARED"
  | .zoneIsolated => "ZONE-ISOLATED" | .zoneRestored => "ZONE-RESTORED" | .incidentAccepted => "INCIDENT-ACCEPTED"
  | .incidentSilenced => "INCIDENT-SILENCED" | .incidentClosed => "INCIDENT-CLOSED" | .cadenceChanged => "CADENCE-CHANGED"
  | .spotDone => "SPOT-DONE" | .carService => "CAR-SERVICE" | .carRetargeted => "CAR-RETARGETED"
  | .crewKeyIgnored => "CREW-KEY-IGNORED" | .callCancelled => "CALL-CANCELLED" | .doorSecured => "DOOR-SECURED"
  | .heldOpen => "HELD-OPEN" | .heldCleared => "HELD-CLEARED" | .programmeState => "PROGRAMME-STATE"
  | .tenantStarted => "TENANT-STARTED" | .tenantDone => "TENANT-DONE" | .liveState => "LIVE-STATE"
  | .eraseSuspended => "ERASE-SUSPENDED" | .eraseResumed => "ERASE-RESUMED" | .eraseDone => "ERASE-DONE"
  | .eraseAborted => "ERASE-ABORTED" | .clipCommitted => "CLIP-COMMITTED" | .regimeWritten => "REGIME-WRITTEN"
  | .regimeActivated => "REGIME-ACTIVATED" | .modeChanged => "MODE-CHANGED" | .started => "STARTED"

/-- The keyword of a trouble kind (Table 9-3). -/
def TroubleKind.name : TroubleKind → String
  | .regimeFallback => "REGIME-FALLBACK" | .regimeWriteFailed => "REGIME-WRITE-FAILED"
  | .doorFaultRelease => "DOOR-FAULT-RELEASE" | .doorFaultLock => "DOOR-FAULT-LOCK" | .liftOut => "LIFT-OUT"
  | .liftLost => "LIFT-LOST" | .expanderLost => "EXPANDER-LOST" | .channelShort => "CHANNEL-SHORT"
  | .channelOpen => "CHANNEL-OPEN" | .cadenceUnknown => "CADENCE-UNKNOWN" | .meterStarved => "METER-STARVED"
  | .liveKilled => "LIVE-KILLED"

/-- The rank of a trouble kind (Table 9-3). -/
def TroubleKind.rank : TroubleKind → Nat
  | .regimeFallback => 1 | .regimeWriteFailed => 2 | .doorFaultRelease => 3 | .doorFaultLock => 4
  | .liftOut => 5 | .liftLost => 6 | .expanderLost => 7 | .channelShort => 8 | .channelOpen => 9
  | .cadenceUnknown => 10 | .meterStarved => 11 | .liveKilled => 12

/-- The class of a trouble kind entered with `openIncident` telling whether an incident is open (Table 9-3, Table 9-4). -/
def TroubleKind.cls (openIncident : Bool) : TroubleKind → EventClass
  | .regimeFallback | .doorFaultRelease => .fireFault
  | .liftOut => if openIncident then .fireFault else .trouble
  | _ => .trouble

/-- The place of a source in source order (R183); sources that suffer no trouble come after. -/
def Source.order : Source → Nat
  | .regime => 0
  | .live => 1
  | .chan n => 1 + n
  | .car n => 25 + n
  | .expander n => 31 + n
  | .door n => 43 + n
  | .control => 1000
  | .store => 1001
  | .zone n => 2000 + n
  | .incident n => 3000 + n
  | .prog n => 4000 + n
  | .ticket n => 5000 + n

/-- The one word of a source (R201). -/
def Source.field : Source → Field
  | .control => [[.word "CONTROL"]]
  | .regime => [[.word "REGIME"]]
  | .store => [[.word "STORE"]]
  | .live => [[.word "LIVE"]]
  | .chan n => [[.word "CHAN"], [.num n]]
  | .zone n => [[.word "ZONE"], [.num n]]
  | .incident n => [[.word "INCIDENT"], [.num n]]
  | .car n => [[.word "CAR"], [.num n]]
  | .door n => [[.word "DOOR"], [.num n]]
  | .expander n => [[.word "EXPANDER"], [.num n]]
  | .prog n => [[.word "PROG"], [.num n]]
  | .ticket n => [[.word "TICKET"], [.num n]]

/-! ### Field values -/

/-- A field of one atom. -/
def f1 (a : Atom) : Field := [[a]]

/-- A field of one keyword. -/
def fWord (w : String) : Field := f1 (.word w)

/-- A field of one number. -/
def fNum (n : Nat) : Field := f1 (.num n)

/-- A number, or a hyphen when absent (R200). -/
def fOptNum : Option Nat → Field
  | none => f1 .hyphen
  | some n => fNum n

/-- An uptime. -/
def fTime (ms : Nat) : Field := f1 (.time ms)

/-- An uptime, or a hyphen when absent. -/
def fOptTime : Option Nat → Field
  | none => f1 .hyphen
  | some t => fTime t

/-- A flag as Y or N. -/
def yn (b : Bool) : Atom := if b then .word "Y" else .word "N"

/-- A field of one flag. -/
def fFlag (b : Bool) : Field := f1 (yn b)

/-- A hyphen for an absent field. -/
def fNone : Field := f1 .hyphen

/-- Numbers as a comma list in their order, or a hyphen for none. -/
def listField : List Nat → Field
  | [] => fNone
  | ns => [ns.map Atom.num]

/-- The runs of a rising list of numbers, each with its first and last member. -/
def runs : List Nat → List (Nat × Nat)
  | [] => []
  | n :: ns =>
    match runs ns with
    | [] => [(n, n)]
    | (a, b) :: rs => if a = n + 1 then (n, b) :: rs else (n, n) :: (a, b) :: rs

/-- One run as it is written: runs of three or more as ranges (R200). -/
def runAtoms : Nat × Nat → List Atom
  | (a, b) => if a = b then [.num a] else if b = a + 1 then [.num a, .num b] else [.range a b]

/-- The atoms of a set, members rising (R200); the empty set has none to write and is a hyphen. -/
def setAtoms (ns : List Nat) : List Atom :=
  match (runs ns).flatMap runAtoms with
  | [] => [.hyphen]
  | as => as

/-- A set as a field. -/
def fSet (ns : List Nat) : Field := [setAtoms ns]

/-! ### The event queue (R178 to R182) -/

/-- The queue with a record after every record of its own or a lower class (R179). -/
def insertEvent (e : Event) : List Event → List Event
  | [] => [e]
  | x :: xs => if x.cls.num ≤ e.cls.num then x :: insertEvent e xs else e :: x :: xs

/-- The highest-numbered class in the queue that is above the newcomer's (R180). -/
def displaceable (e : Event) (q : List Event) : Option EventClass :=
  [EventClass.status, .trouble, .fireFault].find? fun c =>
    decide (e.cls.num < c.num) && q.any (fun x => x.cls == c)

/-- The event unit takes one record (R179, R180). -/
def EventUnit.take (u : EventUnit) (e : Event) : EventUnit :=
  if u.queue.length < 64 then { u with queue := insertEvent e u.queue }
  else
    match displaceable e u.queue with
    | none => { u with gap := true }
    | some c => { u with queue := insertEvent e (u.queue.eraseP fun x => x.cls == c), gap := true }

/-- The uptime of the present arrival (R187). -/
def State.now (s : State) : Nat := s.control.uptime

/-- A unit raises an event with the class it gives (R178). -/
def State.raiseAs (s : State) (cls : EventClass) (kind : EventKind) (source : Source) (fields : List Field) : State :=
  { s with event := s.event.take { cls := cls, kind := kind, time := s.now, source := source, fields := fields } }

/-- A unit raises an event of a kind with one class (R178, Table 9-5). -/
def State.raise (s : State) (kind : EventKind) (source : Source) (fields : List Field) : State :=
  s.raiseAs kind.cls kind source fields

/-! ### The trouble list (R183 to R185) -/

/-- The standing kinds of a source. -/
def EventUnit.standing (u : EventUnit) (source : Source) : List Standing :=
  match u.troubles.find? fun t => t.source == source with
  | none => []
  | some t => t.kinds

/-- Whether a kind stands for a source. -/
def EventUnit.stands (u : EventUnit) (source : Source) (kind : TroubleKind) : Bool :=
  (u.standing source).any fun k => k.kind == kind

/-- The list with a source's entry put in source order, replacing one it has. -/
def putEntry (e : TroubleEntry) : List TroubleEntry → List TroubleEntry
  | [] => [e]
  | x :: xs =>
    if x.source.order < e.source.order then x :: putEntry e xs
    else if x.source.order = e.source.order then e :: xs
    else e :: x :: xs

/-- The list with a source's standing kinds replaced: no entry when none stands (R183). -/
def putStanding (source : Source) (kinds : List Standing) (ts : List TroubleEntry) : List TroubleEntry :=
  match kinds with
  | [] => ts.filter fun t => t.source != source
  | ks => putEntry ⟨source, ks⟩ ts

/-- How severe a standing kind is: its class, then its rank; the lower is the more severe (R183). -/
def Standing.severity (k : Standing) : Nat := k.cls.num * 16 + k.kind.rank

/-- The shown kind of an entry: the most severe of its standing kinds (R183). -/
def TroubleEntry.shown (e : TroubleEntry) : Option Standing :=
  e.kinds.foldl (fun best k =>
    match best with
    | none => some k
    | some b => if k.severity < b.severity then some k else some b) none

/-- The detail of a trouble as a field; a hyphen where the kind has none (R201). -/
def detailField : Option (List Atom) → Field
  | none => fNone
  | some d => [d]

/-- A unit enters a trouble kind for a source (R184). -/
def State.enterTrouble (s : State) (source : Source) (kind : TroubleKind) (detail : Option (List Atom)) : State :=
  let ks := s.event.standing source
  if s.event.stands source kind then
    let ks' := ks.map fun k => if k.kind = kind then { k with detail := detail } else k
    { s with event := { s.event with troubles := putStanding source ks' s.event.troubles } }
  else
    let cls := kind.cls (!s.fire.incidents.isEmpty)
    let ks' := ks ++ [{ kind := kind, cls := cls, detail := detail, time := s.now }]
    let s := { s with event := { s.event with troubles := putStanding source ks' s.event.troubles } }
    s.raiseAs cls .troubleOn source [fWord kind.name, detailField detail]

/-- A unit resolves a trouble kind for a source (R185). -/
def State.resolveTrouble (s : State) (source : Source) (kind : TroubleKind) : State :=
  let ks := s.event.standing source
  match ks.find? fun k => k.kind == kind with
  | none => s
  | some k =>
    let ks' := ks.filter fun x => x.kind != kind
    let s := { s with event := { s.event with troubles := putStanding source ks' s.event.troubles } }
    s.raiseAs k.cls .troubleOff source [fWord kind.name]

/-- ATTN: asserted while the event queue holds a record (R182). -/
def State.attn (s : State) : Bool := !s.event.queue.isEmpty

/-- Whether an incident is open. -/
def State.incidentOpen (s : State) : Bool := !s.fire.incidents.isEmpty

/-! ### Arrivals -/

/-- The start of an arrival: what the last arrival sent has gone out (log 29). -/
def State.beginArrival (s : State) : State :=
  { s with line := { s.line with sent := [] }, lift := { s.lift with sent := [] } }

end Sys2Proof.Machine
end

