-- ==== Sys2Proof/Machine/Operands.lean ====
section
/-! DEFINITION. The forms of request fields (R199), and the judging of fields from left to right. -/

namespace Sys2Proof.Machine

/-- The value of a decimal digit. -/
def digit (c : Char) : Option Nat :=
  if 0x30 ≤ c.toNat ∧ c.toNat ≤ 0x39 then some (c.toNat - 0x30) else none

/-- The value of a hexadecimal digit, in either case. -/
def hexDigit (c : Char) : Option Nat :=
  if 0x30 ≤ c.toNat ∧ c.toNat ≤ 0x39 then some (c.toNat - 0x30)
  else if 0x41 ≤ c.toNat ∧ c.toNat ≤ 0x46 then some (c.toNat - 0x37)
  else if 0x61 ≤ c.toNat ∧ c.toNat ≤ 0x66 then some (c.toNat - 0x57)
  else none

/-- Digits of a base read most significant first. -/
def digits (base : Nat) (d : Char → Option Nat) : Nat → Text → Option Nat
  | acc, [] => some acc
  | acc, c :: cs =>
    match d c with
    | none => none
    | some v => digits base d (acc * base + v) cs

/-- One to ten decimal digits (R199). -/
def decimal (t : Text) : Option Nat :=
  if t.length = 0 ∨ 10 < t.length then none else digits 10 digit 0 t

/-- A number in the range `lo` to `hi` (R199). -/
def number (lo hi : Nat) (t : Text) : Option Nat :=
  match decimal t with
  | none => none
  | some n => if inRange lo hi n then some n else none

/-- A text cut at each `sep`: at least one piece. -/
def splitAt (sep : Char) : Text → List Text
  | [] => [[]]
  | c :: cs =>
    match splitAt sep cs with
    | [] => [[]]
    | w :: ws => if c = sep then [] :: w :: ws else (c :: w) :: ws

/-- One item of a set: a number or a range `a-b` with a ≤ b (R199). -/
def setItem (lo hi : Nat) (t : Text) : Option (Nat × Nat) :=
  match splitAt '-' t with
  | [a] =>
    match number lo hi a with
    | none => none
    | some n => some (n, n)
  | [a, b] =>
    match number lo hi a, number lo hi b with
    | some m, some n => if m ≤ n then some (m, n) else none
    | _, _ => none
  | _ => none

/-- The items of a set, all of which must be good. -/
def setItems (lo hi : Nat) : List Text → Option (List (Nat × Nat))
  | [] => some []
  | t :: ts =>
    match setItem lo hi t, setItems lo hi ts with
    | some i, some is => some (i :: is)
    | _, _ => none

/-- A set with members in `lo` to `hi`: the union of its items, members rising (R199). -/
def numberSet (lo hi : Nat) (t : Text) : Option (List Nat) :=
  match setItems lo hi (splitAt ',' t) with
  | none => none
  | some items => some ((span lo hi).filter fun n => items.any fun i => decide (i.1 ≤ n) && decide (n ≤ i.2))

/-- Pairs of hexadecimal digits, each one byte (R199). -/
def hexBytes : Text → Option (List Byte)
  | [] => some []
  | [_] => none
  | a :: b :: cs =>
    match hexDigit a, hexDigit b, hexBytes cs with
    | some h, some l, some bs => some (BitVec.ofNat 8 (h * 16 + l) :: bs)
    | _, _, _ => none

/-- Hex data of `lo` to `hi` bytes (R17, R165). -/
def hexData (lo hi : Nat) (t : Text) : Option (List Byte) :=
  match hexBytes t with
  | none => none
  | some bs => if inRange lo hi bs.length then some bs else none

/-- A check value: eight hexadecimal digits, most significant first (R199), in either case (log 51). -/
def checkValue (t : Text) : Option Crc32 :=
  if t.length = 8 then (digits 16 hexDigit 0 t).map (BitVec.ofNat 32) else none

/-- A word out of the owning rule's list, with the value it stands for (R199). -/
def wordOf {α : Type} : List (String × α) → Text → Option α
  | [], _ => none
  | (w, a) :: ws, t => if t = w.toList then some a else wordOf ws t

/-- A stair letter (R118). -/
def stairWord : Text → Option Stair :=
  wordOf [("A", .a), ("B", .b), ("C", .c)]

/-- A tenant step (R138, Table 6-4). -/
def tenantStep (t : Text) : Option Step :=
  match splitAt '/' t with
  | [k, a] =>
    if k = "CLIP".toList then (number 1 127 a).map .clip
    else if k = "GAP".toList then (number 0 10000 a).map .gap
    else none
  | [k, a, b] =>
    if k = "TONE".toList then
      match number 1 8 a, number 100 10000 b with
      | some n, some ms => some (.tone n ms)
      | _, _ => none
    else none
  | _ => none

/-! ### Judging the fields of a request: the number of the first field that fails, or the values -/

/-- Field `n` in a form; missing fails (R199). -/
def field {α : Type} (n : Nat) (form : Text → Option α) (fields : List Text) : Except Nat α :=
  match fields[n - 1]? with
  | none => .error n
  | some t =>
    match form t with
    | none => .error n
    | some a => .ok a

/-- Field `n` in a form, or left out. -/
def optField {α : Type} (n : Nat) (form : Text → Option α) (fields : List Text) : Except Nat (Option α) :=
  match fields[n - 1]? with
  | none => .ok none
  | some t =>
    match form t with
    | none => .error n
    | some a => .ok (some a)

/-- No field beyond the `n`-th (R199). -/
def noMore (n : Nat) (fields : List Text) : Except Nat Unit :=
  if n < fields.length then .error (n + 1) else .ok ()

/-- A request without fields. -/
def fields0 (fields : List Text) : Except Nat Unit := noMore 0 fields

/-- A request with one field. -/
def fields1 {α : Type} (p : Text → Option α) (fields : List Text) : Except Nat α := do
  let a ← field 1 p fields
  noMore 1 fields
  return a

/-- A request with one field that may be left out. -/
def fieldsOpt {α : Type} (p : Text → Option α) (fields : List Text) : Except Nat (Option α) := do
  let a ← optField 1 p fields
  noMore 1 fields
  return a

/-- A request with two fields. -/
def fields2 {α β : Type} (p : Text → Option α) (q : Text → Option β) (fields : List Text) : Except Nat (α × β) := do
  let a ← field 1 p fields
  let b ← field 2 q fields
  noMore 2 fields
  return (a, b)

end Sys2Proof.Machine
end

