-- ==== Sys2Proof/Machine/Line.lean ====
section
/-! DEFINITION. The line interface (chapter 10): lines, the input buffer, keywords, the turn of a request, replies, and the text of what is sent. -/

namespace Sys2Proof.Machine

/-! ### Keywords (R198, Table 10-3) -/

/-- The second words a family word is paired with. -/
def familyPairs : List (String × List String) :=
  [("REGIME", ["BEGIN", "DATA", "END", "ACTIVATE"]), ("GUARD", ["SET", "CLR"]), ("MAINT", ["ON", "OFF"]),
   ("LIVE", ["START", "ZONES", "STOP"]), ("TENANT", ["CANCEL"])]

/-- The one-word keywords. -/
def oneWords : List String :=
  ["REGIME?", "CHAN?", "CHANCLR", "SPOT", "ZONE?", "ISOLATE", "RESTORE", "ACCEPT", "SILENCE", "CLOSE", "MANUAL"] ++
  ["INCIDENTS", "INCIDENT?", "GUARD?", "GUARDLATCH", "CAR?", "RELEASE", "LOCK", "DOOR?", "STAIR?", "TENANT"] ++
  ["TENANT?", "AZONE?", "PROG?", "LIVE?", "ERASE", "WRITE", "COMMIT", "LOCKBLK", "PERMIT", "ABORT", "STORE?"] ++
  ["CLIPS", "EVENTS", "TROUBLES", "RESTART", "HELLO", "MODE?"]

/-- The two words of a two-word keyword. -/
def pairKeyword (a b : Text) : Option String :=
  match familyPairs.find? fun p => p.1.toList == a with
  | none => none
  | some p =>
    match p.2.find? fun w => w.toList == b with
    | none => none
    | some w => some (p.1 ++ " " ++ w)

/-- A first word that is a keyword by itself. -/
def oneKeyword (a : Text) : Option String :=
  oneWords.find? fun w => w.toList == a

/-- The keyword and the fields of a request line's text, if it has a keyword (R198). -/
def classify (body : Text) : Option (String × List Text) :=
  match splitAt ' ' body with
  | [] => none
  | [a] => (oneKeyword a).map fun k => (k, [])
  | a :: b :: ws =>
    match pairKeyword a b with
    | some k => some (k, ws)
    | none => (oneKeyword a).map fun k => (k, b :: ws)

/-- The first word of a line. -/
def firstWord (body : Text) : Text :=
  (splitAt ' ' body).headD []

/-- The refusal word of a keyword: its first word without a trailing question mark (R200). -/
def refusalWord (kw : String) : Atom :=
  .text ((firstWord kw.toList).filter fun c => c != '?')

/-! ### Lines (R195 to R197) -/

/-- A printable character (R195). -/
def printable (c : RxChar) : Option Char :=
  match c with
  | .char b => if 0x20 ≤ b.toNat ∧ b.toNat ≤ 0x7E then some (Char.ofNat b.toNat) else none
  | _ => none

/-- The carriage return and the line feed. -/
def crChar : RxChar := .char 0x0D

/-- The line feed. -/
def lfChar : RxChar := .char 0x0A

/-- All characters of a line as text, if all are printable. -/
def printables : List RxChar → Option Text
  | [] => some []
  | c :: cs =>
    match printable c, printables cs with
    | some x, some xs => some (x :: xs)
    | _, _ => none

/-- The form of a line's characters before its line feed (R195); `more` tells of characters beyond the 301st. -/
def judgeLine (rx : List RxChar) (more : Bool) : BufLine :=
  if more || rx.getLast? != some crChar then .damaged
  else
    match printables rx.dropLast with
    | none => .damaged
    | some t =>
      match splitAt '~' t with
      | [body, check] =>
        if check.length = 4 then
          match digits 16 hexDigit 0 check with
          | none => .damaged
          | some c => .formed body (BitVec.ofNat 16 c)
        else .damaged
      | _ => .damaged

/-- A complete line enters the input buffer, or sets the overrun mark (R197). -/
def LineIf.enter (l : LineIf) (b : BufLine) : LineIf :=
  if l.buffer.length < 2 then { l with buffer := l.buffer ++ [b] } else { l with overrun := true }

/-- One received character (R195). -/
def LineIf.receive (l : LineIf) (c : RxChar) : LineIf :=
  if c = lfChar then
    let l' := { l with rx := [], rxMore := false }
    if !l.rxMore && (l.rx.isEmpty || l.rx == [crChar]) then l'
    else l'.enter (judgeLine l.rx l.rxMore)
  else if l.rx.length < 301 then { l with rx := l.rx ++ [c] }
  else { l with rxMore := true }

/-- Whether the check of a buffered line fails, or the line is damaged (R195, R196). -/
def BufLine.checkFails : BufLine → Bool
  | .damaged => true
  | .formed body check => crc16 body != check

/-! ### Replies (R197, R200) -/

/-- The overrun mark as the next reply sent carries it (R197). -/
def State.mark (s : State) : List Field := if s.line.overrun then [fWord "OVERRUN"] else []

/-- A reply is begun. It carries the overrun mark after its second word, and the mark is cleared (R197); where EV lines are sent before it,
it takes the mark when they have been sent (`State.closingLine`). -/
def State.reply (s : State) (events : List SentLine) (head : List Atom) (rest : List Field) : State :=
  { s with line := { s.line with
      overrun := if events.isEmpty then false else s.line.overrun
      reply := some ⟨events, head.map f1 ++ (if events.isEmpty then s.mark else []) ++ rest⟩ } }

/-- The reply to a request that is taken (R200). -/
def State.ok (s : State) (keyword : String) (fields : List Field) : State :=
  s.reply [] [.word "OK", .word keyword] fields

/-- The refusal of a request with a reason and its detail (R200, Table 10-1). -/
def State.no (s : State) (kw : String) (reason : String) (detail : List Field) : State :=
  s.reply [] [.word "NO", refusalWord kw] (fWord reason :: detail)

/-- The refusal for a field (R199). -/
def State.noField (s : State) (kw : String) (n : Nat) : State :=
  s.no kw "FIELD" [fNum n]

/-! ### The turn of a request (R198) -/

/-- The text of a request before its check. -/
def requestBody (kw : String) (fields : List Text) : Text :=
  kw.toList ++ fields.flatMap fun f => ' ' :: f

/-- The line of a request, its check good. -/
def requestLine (kw : String) (fields : List Text) : BufLine :=
  .formed (requestBody kw fields) (crc16 (requestBody kw fields))

/-- A character a line may hold before its check. -/
def bodyChar (c : Char) : Bool :=
  decide (0x20 ≤ c.toNat) && decide (c.toNat ≤ 0x7E) && c != '~'

/-- Whether a request is taken now: no reply is in progress, its text is a request with this keyword and these fields, and it is the line
at the head of the buffer, or the buffer is empty and the command also stands for the line's completion (log 4). -/
def State.turn (s : State) (kw : String) (fields : List Text) : Bool :=
  s.line.reply.isNone && classify (requestBody kw fields) == some (kw, fields) &&
  match s.line.buffer with
  | [] => (requestBody kw fields).all bodyChar && decide ((requestBody kw fields).length ≤ 295)
  | l :: _ => l == requestLine kw fields

/-- The request's line stands at the head of the buffer while it is handled (R197). -/
def State.openRequest (s : State) (kw : String) (fields : List Text) : State :=
  let s := s.beginArrival
  if s.line.buffer.isEmpty then { s with line := { s.line with buffer := [requestLine kw fields] } } else s

/-- A request: its turn, its fields, then the owning unit's act. -/
def State.request {α : Type} (s : State) (kw : String) (fields : List Text) (parse : List Text → Except Nat α)
    (act : State → α → State) : State :=
  if s.turn kw fields then
    match parse fields with
    | .error n => (s.openRequest kw fields).noField kw n
    | .ok a => act (s.openRequest kw fields) a
  else s

/-! ### What goes out on the command transmit output (R196, R200, R201) -/

/-- A decimal digit as a character, and a hexadecimal one in upper case. -/
def digitChar (n : Nat) : Char :=
  if n < 10 then Char.ofNat (0x30 + n) else Char.ofNat (0x37 + n)

/-- `k` digits of a base, most significant first. -/
def digitsText (base : Nat) : Nat → Nat → Text
  | 0, _ => []
  | k + 1, n => digitsText base k (n / base) ++ [digitChar (n % base)]

/-- How many decimal digits a number below 10^20 has; at least one. -/
def decimalLength (n : Nat) : Nat :=
  ((List.range 20).filter fun k => decide (10 ^ (k + 1) ≤ n)).length + 1

/-- A number in decimal without leading zeros (R200). -/
def decimalText (n : Nat) : Text := digitsText 10 (decimalLength n) n

/-- One atom as it is written (R200). -/
def atomText : Atom → Text
  | .hyphen => ['-']
  | .word w => w.toList
  | .text t => t
  | .num n => decimalText n
  | .time ms => decimalText (ms / 1000) ++ '.' :: digitsText 10 3 (ms % 1000)
  | .hex k n => digitsText 16 k n
  | .range a b => decimalText a ++ '-' :: decimalText b

/-- Texts with a separator between them. -/
def joinWith (sep : Char) : List Text → Text
  | [] => []
  | [t] => t
  | t :: ts => t ++ sep :: joinWith sep ts

/-- One field: slashes between its parts, commas within a part (R200, R201). -/
def fieldText (f : Field) : Text :=
  joinWith '/' (f.map fun part => joinWith ',' (part.map atomText))

/-- The text of a sent line before its check. -/
def lineBody (l : SentLine) : Text := joinWith ' ' (l.map fieldText)

/-- A sent line with its check, carriage return and line feed (R196). -/
def wireLine (l : SentLine) : Text :=
  lineBody l ++ '~' :: digitsText 16 4 (crc16 (lineBody l)).toNat ++ [Char.ofNat 0x0D, Char.ofNat 0x0A]

/-- What the last arrival sent complete on the command transmit output (log 29). -/
def State.transmitted (s : State) : List Text := s.line.sent.map wireLine

/-! ### The arrivals of the line interface -/

/-- `LINE_COMPLETE`: the characters received, the line feed among them (R195, R197; log 35). -/
def execLineComplete (chars : List RxChar) (s : State) : Host.Outcome State Fault Refusal :=
  let s := s.beginArrival
  .next { s with line := chars.foldl LineIf.receive s.line }

/-- A damaged line, or one whose check fails, is answered in its turn (R195, R196). -/
def execCheck (s : State) : Host.Outcome State Fault Refusal :=
  let answer (s : State) : State := s.reply [] [.word "NO", .word "?"] [fWord "CHECK"]
  if s.line.reply.isSome then .next s
  else
    match s.line.buffer with
    | [] =>
      let s := s.beginArrival
      .next (answer { s with line := { s.line with buffer := [.damaged] } })
    | l :: _ => if l.checkFails then .next (answer s.beginArrival) else .next s

/-- A request line whose first words match no keyword is answered with its first word cut to 16 characters (R198); a first word that is
empty stands empty between its two spaces (log 52). -/
def execUnknown (s : State) : Host.Outcome State Fault Refusal :=
  if s.line.reply.isSome then .next s
  else
    match s.line.buffer with
    | .formed body check :: _ =>
      if crc16 body = check ∧ classify body = none then
        .next (s.beginArrival.reply [] [.word "NO", .text ((firstWord body).take 16)] [fWord "UNKNOWN"])
      else .next s
    | _ => .next s

/-- The last line of a reply as it is sent: one that follows EV lines takes the overrun mark after its second word as its own sending
begins, so a line discarded while the EV lines go out is carried by it (R197; log 44). -/
def State.closingLine (s : State) (r : Reply) : SentLine :=
  if r.events.isEmpty then r.line else r.line.take 2 ++ s.mark ++ r.line.drop 2

/-- The last character of the reply has been sent: its line leaves the buffer (R197). -/
def execReplyComplete (s : State) : Host.Outcome State Fault Refusal :=
  match s.line.reply with
  | none => .next s
  | some r =>
    let s := s.beginArrival
    .next { s with line := { s.line with
      buffer := s.line.buffer.tail
      overrun := if r.events.isEmpty then s.line.overrun else false
      reply := none
      sent := r.events ++ [s.closingLine r] } }

end Sys2Proof.Machine
end

