-- ==== Sys2Proof/Machine/StoreEngine.lean ====
section
/-! DEFINITION. The clip store's engine and its reads in progress (8.1 to 8.3, 8.6, 8.7): what the store requests and the programmes share. -/

namespace Sys2Proof.Machine

/-! ### Store blocks and addresses (R157, R158) -/

/-- Bytes of a store block. -/
def blockSize : Nat := 131072

/-- The place of a block among the 32, counted from 1. -/
def blockNumber (bank block : Nat) : Nat := (bank - 1) * 16 + block

/-- The address of a block's byte 0 among the 4 MiB of clip bytes. -/
def blockBase (bank block : Nat) : Nat := ((bank - 1) * 16 + (block - 1)) * blockSize

/-- A block's fields. -/
def ClipStore.block (c : ClipStore) (bank block : Nat) : Option StoreBlock :=
  at1 c.blocks (blockNumber bank block)

/-- The store with a block's fields replaced. -/
def ClipStore.putBlock (c : ClipStore) (bank block : Nat) (b : StoreBlock) : ClipStore :=
  { c with blocks := put1 c.blocks (blockNumber bank block) b }

/-- Whether a block is LOCKED. -/
def ClipStore.locked (c : ClipStore) (bank block : Nat) : Bool :=
  match c.block bank block with
  | none => false
  | some b => b.locked

/-- Whether a block is SOUND. -/
def ClipStore.sound (c : ClipStore) (bank block : Nat) : Bool :=
  match c.block bank block with
  | none => false
  | some b => b.sound

/-- The store with a block UNKNOWN. -/
def ClipStore.makeUnknown (c : ClipStore) (bank block : Nat) : ClipStore :=
  match c.block bank block with
  | none => c
  | some b => c.putBlock bank block { b with sound := false }

/-- The block count of a clip of a data length (R158). -/
def clipBlocks (length : Nat) : Nat := (16 + length + (blockSize - 1)) / blockSize

/-- The last block a clip touches. -/
def DirEntry.last (e : DirEntry) : Nat := e.first + clipBlocks e.length - 1

/-- Whether a clip touches a block (R158). -/
def DirEntry.touches (e : DirEntry) (bank block : Nat) : Bool :=
  e.bank == bank && decide (e.first ≤ block) && decide (block ≤ e.last)

/-- The directory entry of a clip (R159). -/
def ClipStore.find (c : ClipStore) (id : Nat) : Option DirEntry :=
  c.directory.find? fun e => e.id == id

/-- The directory with an entry in clip id order, replacing none (R159). -/
def putDirEntry (e : DirEntry) : List DirEntry → List DirEntry
  | [] => [e]
  | x :: xs => if x.id < e.id then x :: putDirEntry e xs else e :: x :: xs

/-! ### Bytes of the banks (R157, R158) -/

/-- The clip header in the block that holds an address. -/
def ClipStore.headerAt (c : ClipStore) (a : Nat) : Option ClipHeader :=
  match at1 c.blocks (a / blockSize + 1) with
  | none => none
  | some b => b.header

/-- The byte at an address, whose erased cells have been read as `raw`: a clip header's bytes stand in bytes 0 to 15 of its block (log 8). -/
def ClipStore.overlay (c : ClipStore) (a : Nat) (raw : Byte) : Byte :=
  match c.headerAt a with
  | some h =>
    if a % blockSize < 16 ∧ raw = erasedByte then
      Config.clipHeaderByte h.id (clipBlocks h.length) h.length h.crc (a % blockSize)
    else raw
  | none => raw

/-- `len` bytes from an address. -/
def ClipStore.readBytes (c : ClipStore) (a len : Nat) : List Byte :=
  let raw := c.bytes.slice erasedByte a len
  if (List.range ((a + len) / blockSize + 1 - a / blockSize)).any fun k => (c.headerAt (a + k * blockSize)).isSome then
    raw.mapIdx fun i b => c.overlay (a + i) b
  else raw

/-- A clip's data (R158). -/
def ClipStore.dataBytes (c : ClipStore) (bank first length : Nat) : List Byte :=
  c.readBytes (blockBase bank first + 16) length

/-! ### The engine (8.3, 8.7) -/

/-- The unlock permit is cleared (R162). -/
def State.clearPermit (s : State) : State := { s with store := { s.store with permit := false } }

/-- The engine takes a state. -/
def State.setEngine (s : State) (e : Engine) : State := { s with store := { s.store with engine := e } }

/-- The keyword of a suspension's cause (Table 8-1). -/
def SuspendCause.name : SuspendCause → String
  | .read => "READ" | .start => "START" | .freeze => "FREEZE"

/-- The erase in flight is paused: its erasing time so far is kept, the permit goes, and the suspension is reported (R163, R172, R173). -/
def State.suspendErase (s : State) (job : EraseJob) (cause : SuspendCause) (settle : Option Nat) : State :=
  let s := (s.setEngine (.suspended job cause settle)).clearPermit
  s.raise .eraseSuspended .store [fNum job.bank, fNum job.block, fWord cause.name]

/-- An erase job with its present spell of erasing added to its time so far. -/
def EraseJob.pause (j : EraseJob) (now : Nat) : EraseJob :=
  { j with erased := j.erased + (now - j.since), since := now }

/-- Whether a read of a bank is in progress. -/
def ClipStore.readIn (c : ClipStore) (bank : Nat) : Bool :=
  c.reads.any fun r => r.bank == bank

/-- The resumption test, made for a bank: store freeze is that of the building demand as it stands (R174). -/
def State.resumeTest (s : State) (bank : Nat) : State :=
  match s.store.engine with
  | .suspended job _ _ =>
    if job.bank = bank ∧ s.fire.demand.freeze = false ∧ s.store.readIn bank = false then
      (s.setEngine (.erasing { job with since := s.now })).raise .eraseResumed .store [fNum job.bank, fNum job.block]
    else s
  | _ => s

/-- The clip store takes a change of store freeze (R173, R174); an erase suspended already stays as it is when it becomes true. -/
def State.storeTakesFreeze (s : State) (old new : Bool) : State :=
  if old = new then s
  else
    match s.store.engine with
    | .erasing job => if new then s.suspendErase (job.pause s.now) .freeze (some (s.now + 20)) else s
    | .suspended job _ _ => if new then s else s.resumeTest job.bank
    | _ => s

/-! ### Reads in progress (R170, R171) -/

/-- What the clip store answers to a read. -/
inductive ReadVerdict where
  | waits (stage : ReadStage)
  | delivers
  | refused
  deriving DecidableEq, Repr

/-- How a read of a bank is judged by the engine as it stands (R170). While store freeze is true no read is refused for the count of read
suspensions: the erase is to be suspended for the freeze in any case (R172, R173; log 53). -/
def Engine.judge (e : Engine) (freeze : Bool) (bank : Nat) : ReadVerdict :=
  match e with
  | .writing (.data _ _ _ _) => .waits .waitingWrite
  | .writing (.header _) => .waits .waitingWrite
  | .writing .regime => .delivers
  | .erasing job =>
    if job.bank = bank then (if job.reads < 4 || freeze then .waits .waitingSettle else .refused) else .delivers
  | .suspended job _ settle =>
    if job.bank = bank ∧ settle.isSome then .waits .waitingSettle else .delivers
  | .ready => .delivers

/-- A read leaves the list. -/
def ClipStore.dropRead (c : ClipStore) (p : Prog) : ClipStore :=
  { c with reads := c.reads.filter fun r => r.prog != p }

/-- A read in progress takes a stage. -/
def ClipStore.stageRead (c : ClipStore) (p : Prog) (st : ReadStage) : ClipStore :=
  { c with reads := c.reads.map fun r => if r.prog = p then { r with stage := st } else r }

/-- A read in progress is judged, and what its judgement does to the engine and to the list is done (R170, R172). -/
def State.judgeRead (s : State) (r : StoreRead) : State × ReadVerdict :=
  let v := s.store.engine.judge s.fire.demand.freeze r.bank
  match v with
  | .delivers => ({ s with store := s.store.stageRead r.prog .delivering }, v)
  | .refused => ({ s with store := s.store.dropRead r.prog }, v)
  | .waits st =>
    let s := { s with store := s.store.stageRead r.prog st }
    match s.store.engine with
    | .erasing job =>
      if job.reads < 4 then (s.suspendErase { job.pause s.now with reads := job.reads + 1 } .read (some (s.now + 20)), v)
      else (s.suspendErase (job.pause s.now) .freeze (some (s.now + 20)), v)
    | _ => (s, v)

/-- The beginning of a read is handed to the clip store (R170). -/
def State.beginRead (s : State) (p : Prog) (clip bank : Nat) : State × ReadVerdict :=
  let r : StoreRead := ⟨p, clip, bank, .delivering⟩
  State.judgeRead { s with store := { s.store with reads := s.store.reads ++ [r] } } r

/-- The end of a read: it leaves the list and the resumption test is made for its bank (R171). -/
def State.endRead (s : State) (p : Prog) : State :=
  match s.store.reads.find? fun r => r.prog == p with
  | none => s
  | some r => State.resumeTest { s with store := s.store.dropRead p } r.bank

end Sys2Proof.Machine
end

