-- ==== Sys2Proof/Machine/Announce.lean ====
section
/-! DEFINITION. Programmes, scripts, tenant announcements and audio zone holders (chapter 6), but for the requests. -/

namespace Sys2Proof.Machine

/-! ### Records and names -/

/-- A programme's record. -/
def State.prog (s : State) : Prog → ProgRec
  | .live => s.ann.live
  | .evac => s.ann.evac
  | .alert => s.ann.alert
  | .tenant => s.ann.tenant

/-- The state with a programme's record replaced. -/
def State.setProg (s : State) (p : Prog) (r : ProgRec) : State :=
  match p with
  | .live => { s with ann := { s.ann with live := r } }
  | .evac => { s with ann := { s.ann with evac := r } }
  | .alert => { s with ann := { s.ann with alert := r } }
  | .tenant => { s with ann := { s.ann with tenant := r } }

/-- The priority of a programme, its number as a source (Table 6-1). -/
def progNumber : Prog → Nat
  | .live => 4 | .evac => 3 | .alert => 2 | .tenant => 1

/-- The name of a programme (Table 6-1). -/
def progName : Prog → String
  | .live => "LIVE" | .evac => "EVAC" | .alert => "ALERT" | .tenant => "TENANT"

/-- The name of a programme state (Table 6-3). -/
def ProgState.name : ProgState → String
  | .idle => "IDLE" | .playing => "PLAYING" | .heldSilent => "HELD-SILENT"

/-- Whether an audio zone is present (R8). -/
def Regime.azonePresent (r : Regime) (a : Nat) : Bool := (at1 r.azones a).getD false

/-- A zone set's intersection with the present audio zones (R8, R122). -/
def Regime.presentAzones (r : Regime) (zs : List Nat) : List Nat := zs.filter r.azonePresent

/-- The script a programme plays now (R126). LIVE has none. -/
def State.scriptOf (s : State) : Prog → Script
  | .live => ⟨[], 1⟩
  | .evac => s.regime.active.evac
  | .alert => s.regime.active.alert
  | .tenant =>
    match s.ann.playing with
    | none => ⟨[], 1⟩
    | some a => a.script

/-- EVAC and ALERT report their changes of state (R124). -/
def State.raiseProgState (s : State) (p : Prog) : State :=
  let r := s.prog p
  match p with
  | .evac | .alert => s.raise .programmeState (.prog (progNumber p)) [fWord r.state.name, fOptNum r.pass]
  | _ => s

/-! ### Substitution (R131, R132) -/

/-- Causes of a substitution (R131). -/
inductive MissCause where
  | absent | refused | readFailed
  deriving DecidableEq, Repr

/-- The keyword of a cause. -/
def MissCause.name : MissCause → String
  | .absent => "ABSENT" | .refused => "REFUSED" | .readFailed => "READ-FAILED"

/-- A tone entry of the active regime (R9). -/
def Regime.tone (r : Regime) (k : Nat) : Tone := (at1 r.tones k).getD ⟨0, 0, 50, 0⟩

/-- The clip fallback tone of the active regime (R11). -/
def Regime.fallbackTone (r : Regime) : Tone := r.tone r.options.fallbackTone

/-- A CLIP step is substituted: 3000 ms from now of the fallback tone that stood at the step's start (R126), and the clip is reported missing once for each run (R131, R132). -/
def State.substitute (s : State) (p : Prog) (clip : Nat) (bank : Option Nat) (cause : MissCause) : State :=
  let r := s.prog p
  let tone := r.stepTone.getD s.regime.active.fallbackTone
  let r' := { r with read := some (.substituted clip bank), deadline := some (s.now + 3000), voice := some (tone, s.now) }
  if r.missing.contains clip then s.setProg p r'
  else
    let s := s.setProg p { r' with missing := r.missing ++ [clip] }
    let cls := match p with
      | .evac | .alert => EventClass.fireFault
      | _ => .trouble
    s.raiseAs cls .clipMissing (.prog (progNumber p)) [fNum clip, fWord cause.name, fOptNum r.pass, fOptNum r.step]

/-- A read in progress fails because its clip left the directory (R159, R171). -/
def State.failRead (s : State) (r : StoreRead) : State :=
  (s.endRead r.prog).substitute r.prog r.clip (some r.bank) .readFailed

/-- The first data of a read arrive (R129, R170). -/
def State.startStream (s : State) (p : Prog) : State :=
  let r := s.prog p
  match r.read with
  | some (.waiting clip bank) =>
    let len := match s.store.find clip with
      | none => 0
      | some e => e.length
    s.setProg p { r with read := some (.streaming clip bank s.now len) }
  | _ => s

/-- The clip id and bank of a read not substituted. -/
def ClipRead.inProgress : ClipRead → Bool
  | .substituted _ _ => false
  | _ => true

/-- A running step is abandoned or ended: its read, if in progress, is handed back to the clip store (R124, R129). -/
def State.handBack (s : State) (p : Prog) : State :=
  match (s.prog p).read with
  | some rd => if rd.inProgress then s.endRead p else s
  | none => s

/-! ### Running scripts (R125 to R131, R140, R141) -/

/-- What the announcement unit does next within an arrival. -/
inductive RunAct where
  | start (step : Nat)
  | finish
  | nextAnnouncement
  | play (a : Announcement)
  deriving DecidableEq, Repr

/-- A programme record with the step `n` started at `now` and nothing of the step before. -/
def ProgRec.atStep (r : ProgRec) (n now : Nat) : ProgRec :=
  { r with step := some n, stepAt := some now, deadline := none, read := none, voice := none, stepTone := none }

/-- A programme record with no step (R124, R125). -/
def ProgRec.stopped (r : ProgRec) (st : ProgState) : ProgRec :=
  { r with state := st, step := none, pass := none, stepAt := none, deadline := none, read := none, voice := none, stepTone := none }

/-- A programme record at the start of a run (R124, R125). -/
def ProgRec.begun (r : ProgRec) (claims : List Nat) : ProgRec :=
  { r with state := .playing, claims := claims, pass := some 1, missing := [] }

/-- A CLIP step starts (R129). -/
def State.startClip (s : State) (p : Prog) (clip : Nat) : State :=
  match s.store.find clip with
  | none => s.substitute p clip none .absent
  | some e =>
    let s := s.setProg p { s.prog p with read := some (.waiting clip e.bank) }
    let out := s.beginRead p clip e.bank
    match out.2 with
    | .waits _ => out.1
    | .delivers => out.1.startStream p
    | .refused => out.1.substitute p clip (some e.bank) .refused

/-- A step that ends within the arrival in which it starts: a GAP of 0 ms (R128). -/
def Step.instant : Step → Bool
  | .gap ms => ms == 0
  | _ => false

/-- A step that has a length starts (R125, R127 to R129). -/
def State.startStep (s : State) (p : Prog) (n : Nat) (st : Step) : State :=
  let r := (s.prog p).atStep n s.now
  match st with
  | .tone k ms =>
    s.setProg p { r with deadline := some (s.now + ms), voice := some (s.regime.active.tone k, s.now) }
  | .gap ms => s.setProg p { r with deadline := if ms = 0 then none else some (s.now + ms) }
  | .clip c => (s.setProg p { r with stepTone := some s.regime.active.fallbackTone }).startClip p c

/-- The end of a step: the state and what follows it (R125). A script of 0 ms GAPs repeated for ever makes one pass in 1 ms (log 15). -/
def State.endStep (s : State) (p : Prog) : State × Option RunAct :=
  let r := s.prog p
  let sc := s.scriptOf p
  let n := r.step.getD 0
  let pass := r.pass.getD 1
  if n < sc.steps.length then (s, some (.start (n + 1)))
  else if sc.repeats = 0 ∨ pass < sc.repeats then
    let r' := { r with pass := some (min (pass + 1) 255) }
    if sc.repeats = 0 ∧ sc.steps.all Step.instant then
      (s.setProg p { r'.atStep 1 s.now with deadline := some (s.now + 1) }, none)
    else (s.setProg p r', some (.start 1))
  else
    match p with
    | .tenant =>
      let s := s.setProg p { r.stopped .idle with claims := [] }
      let t := match s.ann.playing with
        | none => 0
        | some a => a.ticket
      let s := { s with ann := { s.ann with playing := none } }
      (s.raise .tenantDone (.ticket t) [fWord "COMPLETED"], some .nextAnnouncement)
    | _ => ((s.setProg p (r.stopped .heldSilent)).raiseProgState p, none)

/-- An announcement becomes the playing one (R140): the state and what follows. -/
def State.playAnnouncement (s : State) (a : Announcement) : State × Option RunAct :=
  let zs := s.regime.active.presentAzones a.zones
  if zs.isEmpty then
    (s.raise .tenantDone (.ticket a.ticket) [fWord "CANCELLED"], some .nextAnnouncement)
  else
    let s := { s with ann := { s.ann with playing := some { a with startedAt := some s.now } } }
    let s := s.raise .tenantStarted (.ticket a.ticket) [fNum zs.length]
    (s.setProg .tenant ((s.prog .tenant).begun zs), some (.start 1))

/-- The head of the tenant queue is taken from it (R139, R140). -/
def State.takeHead (s : State) : State × Option RunAct :=
  match s.ann.queue with
  | [] => (s, none)
  | a :: q => ({ s with ann := { s.ann with queue := q } }, some (.play a))

/-- One act: the state and the act that follows it within the arrival. -/
def State.runOne (s : State) (p : Prog) : RunAct → State × Option RunAct
  | .start n =>
    match (s.scriptOf p).steps[n - 1]? with
    | none => (s, none)
    | some st =>
      let s := s.startStep p n st
      (s, if st.instant then some .finish else none)
  | .finish => s.endStep p
  | .nextAnnouncement => s.takeHead
  | .play a => s.playAnnouncement a

/-- Acts one after another. The longest chain within an arrival is five announcements of 255 passes of eight 0 ms GAPs: 20 420 acts (log 15). -/
def State.runActs : Nat → State → Prog → RunAct → State
  | 0, s, _, _ => s
  | k + 1, s, p, a =>
    match s.runOne p a with
    | (s', none) => s'
    | (s', some a') => State.runActs k s' p a'

/-- The bound on acts within an arrival. -/
def actBound : Nat := 32768

/-- The running step of a programme ends (R125). -/
def State.finishStep (s : State) (p : Prog) : State := s.runActs actBound p .finish

/-- A run begins at step 1 of pass 1 (R124, R125). -/
def State.beginRun (s : State) (p : Prog) (claims : List Nat) : State :=
  let s := (s.setProg p ((s.prog p).begun claims)).raiseProgState p
  s.runActs actBound p (.start 1)

/-- A programme becomes IDLE: a clip read in progress is abandoned (R124). -/
def State.stopProg (s : State) (p : Prog) : State :=
  let s := s.handBack p
  (s.setProg p { (s.prog p).stopped .idle with claims := [] }).raiseProgState p

/-- A programme takes its claim set (R124). -/
def State.setClaims (s : State) (p : Prog) (claims : List Nat) : State :=
  let r := s.prog p
  match r.state with
  | .idle =>
    if claims.isEmpty then s.setProg p { r with claims := [] }
    else
      match p with
      | .live => s.setProg p { r with state := .playing, claims := claims }
      | _ => s.beginRun p claims
  | .playing => if claims.isEmpty then s.stopProg p else s.setProg p { r with claims := claims }
  | .heldSilent =>
    if claims.isEmpty then s.stopProg p
    else if claims.any fun z => !r.claims.contains z then s.beginRun p claims
    else s.setProg p { r with claims := claims }

/-! ### Tenant announcements ended from outside (R140, R142 to R144) -/

/-- TENANT lets its announcement go: the run is abandoned and TENANT becomes IDLE (R142). -/
def State.abandonTenant (s : State) : State :=
  let s := s.stopProg .tenant
  { s with ann := { s.ann with playing := none } }

/-- The end of one announcement is reported. -/
def State.tenantDone (s : State) (ticket : Nat) (outcome : String) : State :=
  s.raise .tenantDone (.ticket ticket) [fWord outcome]

/-- The playing announcement ends with an outcome; nothing starts. -/
def State.endPlaying (s : State) (outcome : String) : State :=
  match s.ann.playing with
  | none => s
  | some a => s.abandonTenant.tenantDone a.ticket outcome

/-- Every announcement ends with an outcome, the playing one first, then the pending ones from the head (R143, R144). -/
def State.endAllTenants (s : State) (outcome : String) : State :=
  let s := s.endPlaying outcome
  let q := s.ann.queue
  let s := { s with ann := { s.ann with queue := [] } }
  q.foldl (fun s a => s.tenantDone a.ticket outcome) s

/-- The head of the tenant queue, if any, starts (R140). -/
def State.startNext (s : State) : State := s.runActs actBound .tenant .nextAnnouncement

/-! ### Holders (R133, R134) and demand changes (R123) -/

/-- The audio zones with a claim (Table 3-5). -/
def Demand.claimed (d : Demand) (c : Claim) : List Nat :=
  (span 1 48).filter fun a => at1 d.claims a == some c

/-- Whether a programme claims an audio zone and is PLAYING or HELD-SILENT (R133). -/
def State.holds (s : State) (p : Prog) (a : Nat) : Bool :=
  (s.prog p).state != .idle && (s.prog p).claims.contains a

/-- The holder an audio zone is to have (R133). -/
def State.rightHolder (s : State) (a : Nat) : Option Prog :=
  if s.regime.active.azonePresent a then
    [Prog.live, .evac, .alert, .tenant].find? fun p => s.holds p a
  else none

/-- An audio zone's record after the recomputation (R134). -/
def State.newHolder (s : State) (a : Nat) (z : AudioZone) : AudioZone :=
  let h := s.rightHolder a
  if h = z.holder then z
  else
    { holder := h
      previous := z.holder
      preempted := match z.holder with
        | none => false
        | some p => s.holds p a
      heldSince := s.now }

/-- The recomputation of the holders at the end of an arrival (R133). -/
def State.settleHolders (s : State) : State :=
  { s with ann := { s.ann with zones := s.ann.zones.mapIdx fun i z => s.newHolder (i + 1) z } }

/-- The announcement unit takes a change of the demand, an arrival of its own to it: tenant stop, EVAC, ALERT, then the holders (R70, R123). -/
def State.announceTakes (s : State) (old new : Demand) : State :=
  let s := if new.tenantStop && !old.tenantStop then s.endAllTenants "PREEMPTED" else s
  let s := s.setClaims .evac (s.regime.active.presentAzones (new.claimed .evac))
  let s := s.setClaims .alert (s.regime.active.presentAzones (new.claimed .alert))
  s.settleHolders

/-! ### Zone audio outputs (R127, R130, R135) -/

/-- What a zone audio output carries for one millisecond: silence, the sum of some frequencies in Hz, or the samples of that millisecond.
The waveform of a frequency is not given (log 32). -/
inductive ZoneAudio where
  | silence
  | tones (frequencies : List Nat)
  | samples (l : List Sample)
  deriving DecidableEq, Repr

/-- A run of samples; none at all is silence. -/
def ZoneAudio.ofSamples : List Sample → ZoneAudio
  | [] => .silence
  | l => .samples l

/-- Whether a tone is in its on-time `ms` after its start (R9, R127). -/
def Tone.on (t : Tone) (ms : Nat) : Bool := decide (ms % (t.onMs + t.offMs) < t.onMs)

/-- The frequencies present in a tone (R9). -/
def Tone.frequencies (t : Tone) : List Nat := [t.freq1, t.freq2].filter fun f => f != 0

/-- What a tone sounds `ms` after its start (R9, R127). -/
def Tone.sound (t : Tone) (ms : Nat) : ZoneAudio :=
  if t.on ms && !t.frequencies.isEmpty then .tones t.frequencies else .silence

/-- The data bytes that a DELIVERING read has of a clip in millisecond `ms` of its stream: eight samples of two bytes (R130, R170). -/
def ClipStore.delivered (c : ClipStore) (clip ms : Nat) : List Byte :=
  match c.find clip with
  | none => []
  | some e => ((c.dataBytes e.bank e.first e.length).drop (16 * ms)).take 16

/-- Samples of two bytes each, most significant byte first; an odd final byte is not played (R130). -/
def samplesOf : List Byte → List Sample
  | hi :: lo :: bs => (hi ++ lo) :: samplesOf bs
  | _ => []

/-- What a script programme sounds at uptime `now`: its voice in a TONE step or a substituted clip, the clip's samples while STREAMING, and
silence otherwise; a voice is cut when its deadline has passed (R127 to R131, R135). -/
def ProgRec.sound (r : ProgRec) (store : ClipStore) (now : Nat) : ZoneAudio :=
  match r.state with
  | .playing =>
    match r.voice, r.read with
    | some (t, since), _ => if due now r.deadline then .silence else t.sound (now - since)
    | none, some (.streaming clip _ start _) =>
      .ofSamples (samplesOf (store.delivered clip (now - start)))
    | none, _ => .silence
  | _ => .silence

/-- The live page input's output at uptime `now`: the eight samples of the playing block that fall in this millisecond of its 10 ms, which end
at the playout deadline; silence when no block plays (R135, R149). -/
def LivePage.sound (l : LivePage) (now : Nat) : ZoneAudio :=
  match l.state, l.playing, l.playout with
  | .running, some b, some d => .ofSamples ((b.drop (8 * (now + 10 - d))).take 8)
  | _, _, _ => .silence

/-- What audio zone `a` carries at this moment (R135). -/
def State.zoneOutput (s : State) (a : Nat) : ZoneAudio :=
  match at1 s.ann.zones a with
  | none => .silence
  | some z =>
    match z.holder with
    | none => .silence
    | some .live => s.live.sound s.now
    | some p => (s.prog p).sound s.store s.now

/-! ### The expiries of the announcement unit -/

/-- `STEP_DEADLINE`: a TONE, GAP or substituted-clip step ends (R125). A deadline not due changes nothing (log 3). -/
def execStepDeadline (p : Prog) (s : State) : Host.Outcome State Fault Refusal :=
  if due s.now (s.prog p).deadline then .next (s.beginArrival.finishStep p).settleHolders else .next s

/-- Whether the last sample of a streaming clip has been played: L ÷ 2 samples at 8 a millisecond (R130; log 30). A clip of one byte, which has no
sample, takes 1 ms too (log 60). -/
def ClipRead.played (now : Nat) : ClipRead → Bool
  | .streaming _ _ start len => decide (max (len / 2) 1 ≤ 8 * (now - start))
  | _ => false

/-- `CLIP_READ_END`: the last sample of the clip has been played (R130). -/
def execClipReadEnd (p : Prog) (s : State) : Host.Outcome State Fault Refusal :=
  match (s.prog p).read with
  | some rd =>
    if rd.played s.now then
      let s := s.beginArrival.endRead p
      let s := s.setProg p { s.prog p with read := none }
      .next (s.finishStep p).settleHolders
    else .next s
  | none => .next s

end Sys2Proof.Machine
end

