-- ==== Sys2Proof/Machine/Clips.lean ====
section
/-! DEFINITION. The clip store's requests, the ends of its operations, the directory and its rebuild (chapter 8). -/

namespace Sys2Proof.Machine

/-! ### Bytes written to the banks (R157, R165) -/

/-- A data write lands (R165, R166). A byte written as FFh stays blank, and a clip header under it stays what it is. -/
def ClipStore.land (c : ClipStore) (bank block offset : Nat) (bytes : List Byte) : ClipStore :=
  { c with bytes := Mem.writeAll erasedByte c.bytes (blockBase bank block + offset) bytes }

/-! ### The directory (R159, R160) -/

/-- The entries whose clips touch a block leave the directory, and reads of those clips fail, in the order of the list of reads
in progress (R159, R163, R166; log 50). -/
def State.dropClips (s : State) (bank block : Nat) : State :=
  let gone := (s.store.directory.filter fun e => e.touches bank block).map DirEntry.id
  let s := { s with store := { s.store with directory := s.store.directory.filter fun e => !e.touches bank block } }
  (s.store.reads.filter fun r => gone.contains r.clip).foldl State.failRead s

/-- The blocks a clip would touch (R158). -/
def touched (first length : Nat) : List Nat := span first (first + clipBlocks length - 1)

/-- Whether a clip of a length fits its bank from a first block (R158, R167). -/
def clipFits (first length : Nat) : Bool := decide (first + clipBlocks length ≤ 17)

/-- Whether `WRITE` has changed no byte of bytes 0 to 15 of a block. -/
def ClipStore.headUnwritten (c : ClipStore) (bank block : Nat) : Bool :=
  (c.bytes.slice erasedByte (blockBase bank block) 16).all fun b => b == erasedByte

/-- What clip header stands in a block: the one the part wrote, while no `WRITE` has changed a byte of it, or what the bytes spell that a
`WRITE` has changed (R160; log 8). -/
def ClipStore.headerOf (c : ClipStore) (bank block : Nat) : Option (Nat × Nat × Crc32) :=
  if c.headUnwritten bank block then (c.headerAt (blockBase bank block)).map fun h => (h.id, h.length, h.crc)
  else Config.strayHeader (c.readBytes (blockBase bank block) 16)

/-- The clip the cold-start scan enters at a block, if its header passes every test (R160). -/
def ClipStore.scanBlock (c : ClipStore) (bank block : Nat) : Option DirEntry :=
  match c.headerOf bank block with
  | none => none
  | some (id, length, crc) =>
    if inRange 1 127 id && (c.find id).isNone && inRange 1 2097136 length && clipFits block length &&
        (touched block length).all (c.sound bank) && crc32 (c.dataBytes bank block length) == crc then
      some ⟨id, bank, block, length, crc⟩
    else none

/-- One block of the cold-start scan (R160): a block inside an entered clip is skipped. -/
def ClipStore.scanAt (c : ClipStore) (bb : Nat × Nat) : ClipStore :=
  if c.directory.any fun e => e.touches bb.1 bb.2 then c
  else
    match c.scanBlock bb.1 bb.2 with
    | none => c
    | some e => { c with directory := putDirEntry e c.directory }

/-- Every block in scan order: bank 1 blocks 1 to 16, then bank 2. -/
def allBlocks : List (Nat × Nat) := (span 1 16).map (fun b => (1, b)) ++ (span 1 16).map fun b => (2, b)

/-- The directory rebuilt at cold start (R160). -/
def ClipStore.rebuild (c : ClipStore) : ClipStore :=
  allBlocks.foldl ClipStore.scanAt { c with directory := [] }

/-! ### The gates of a store request (R161) -/

/-- A store request is refused: the permit is cleared and nothing else changes. -/
def State.storeNo (s : State) (kw reason : String) (detail : List Field) : State :=
  s.clearPermit.no kw reason detail

/-- A store request is taken: the last store error becomes none. -/
def State.storeTaken (s : State) : State := { s with store := { s.store with lastError := .none } }

/-- A store request up to its own tests: its fields, the mode, and with `needsReady` the engine (R161). -/
def State.storeRequest {α : Type} (s : State) (kw : String) (fields : List Text) (parse : List Text → Except Nat α)
    (needsReady : Bool) (act : State → α → State) : State :=
  if s.turn kw fields then
    let s := s.openRequest kw fields
    match parse fields with
    | .error n => s.storeNo kw "FIELD" [fNum n]
    | .ok a =>
      if s.control.mode != .maintenance then s.storeNo kw "NOT-MAINTENANCE" []
      else if needsReady && s.store.engine != .ready then s.storeNo kw "BUSY" []
      else act s a
  else s

/-- The fields of a request for one block. -/
def blockFields : List Text → Except Nat (Nat × Nat) := fields2 (number 1 2) (number 1 16)

/-! ### Erasing (R163, R164, R169) -/

/-- `ERASE` past its gates (R163). -/
def State.takeErase (s : State) (bank block : Nat) : State :=
  if s.store.locked bank block && !s.store.permit then s.storeNo "ERASE" "LOCKED" []
  else
    let n := (s.store.directory.filter fun e => e.touches bank block).length
    let s := s.storeTaken.dropClips bank block
    let s := { s with store := s.store.makeUnknown bank block }
    let job : EraseJob := { bank := bank, block := block, startedAt := s.now, reads := 0, erased := 0, since := s.now }
    let s := if s.store.readIn bank then s.suspendErase job .start none else s.setEngine (.erasing job)
    s.ok "ERASE" [fNum bank, fNum block, fNum n]

/-- `ERASE` (R163). -/
def execErase (fields : List Text) (s : State) : Host.Outcome State Fault Refusal :=
  .next (s.storeRequest "ERASE" fields blockFields true fun s a => s.takeErase a.1 a.2)

/-- A block after a good erase: blank, SOUND and UNLOCKED (R157, R164). -/
def ClipStore.blankBlock (c : ClipStore) (bank block : Nat) : ClipStore :=
  { c.putBlock bank block StoreBlock.blank with bytes := c.bytes.erase (blockBase bank block) blockSize }

/-- The erasing time of an erase up to now (R164). -/
def EraseJob.erasingTime (j : EraseJob) (now : Nat) : Nat := j.erased + (now - j.since)

/-- The least erasing time of an erase (R164; log 16). -/
def eraseLeast : Nat := 600

/-- `ERASE_END`: the erase completes or fails (R164). It does so only while ERASING and not before its least
time. A failed one leaves the stored bytes as they were, in a block that stays UNKNOWN (log 58). -/
def execEraseEnd (good : Bool) (s : State) : Host.Outcome State Fault Refusal :=
  match s.store.engine with
  | .erasing job =>
    if eraseLeast ≤ job.erasingTime s.now then
      let s := s.beginArrival.clearPermit.setEngine .ready
      if good then
        .next (State.raise { s with store := s.store.blankBlock job.bank job.block } .eraseDone .store
          [fNum job.bank, fNum job.block])
      else
        .next (State.raise { s with store := { s.store with lastError := .eraseFailed } } .eraseFailed .store
          [fNum job.bank, fNum job.block])
    else .next s
  | _ => .next s

/-- Every read of a bank in stage WAITING-SETTLE enters DELIVERING, in list order (R169, R172). -/
def State.deliverSettled (s : State) (bank : Nat) : State :=
  (s.store.reads.filter fun r => r.bank == bank && r.stage == .waitingSettle).foldl (fun s r =>
    State.startStream { s with store := s.store.stageRead r.prog .delivering } r.prog) s

/-- `STORE_SETTLE_DEADLINE` (R172). -/
def execStoreSettleDeadline (s : State) : Host.Outcome State Fault Refusal :=
  match s.store.engine with
  | .suspended job cause settle =>
    if due s.now settle then
      .next ((s.beginArrival.setEngine (.suspended job cause none)).deliverSettled job.bank)
    else .next s
  | _ => .next s

/-- An erase is aborted (R169). -/
def State.abortErase (s : State) (job : EraseJob) : State :=
  let s := { s with store := { s.store with engine := .ready, permit := false, lastError := .aborted } }
  let s := s.deliverSettled job.bank
  (s.raise .eraseAborted .store [fNum job.bank, fNum job.block]).ok "ABORT" [fNum job.bank, fNum job.block]

/-- `ABORT` (R169). -/
def execAbort (fields : List Text) (s : State) : Host.Outcome State Fault Refusal :=
  .next (s.storeRequest "ABORT" fields fields0 false fun s _ =>
    match s.store.engine with
    | .erasing job => s.abortErase job
    | .suspended job _ _ => s.abortErase job
    | .ready => s.storeNo "ABORT" "STATE" []
    | .writing _ => s.storeNo "ABORT" "BUSY" [])

/-! ### Writing and committing (R165 to R168) -/

/-- The fields of `WRITE`; a write running beyond its block fails field 3 once field 4's form is good, before a fifth field is looked at
(R165, R199; log 34). -/
def writeFields (fields : List Text) : Except Nat (Nat × Nat × Nat × List Byte) := do
  let bank ← field 1 (number 1 2) fields
  let block ← field 2 (number 1 16) fields
  let offset ← field 3 (number 0 131071) fields
  let bytes ← field 4 (hexData 1 128) fields
  if blockSize < offset + bytes.length then .error 3
  noMore 4 fields
  return (bank, block, offset, bytes)

/-- Whether a range of a bank, by offset from the bank's byte 0, overlaps the header or data of a clip of the directory (R165). -/
def ClipStore.overlapsClip (c : ClipStore) (bank start len : Nat) : Bool :=
  c.directory.any fun e =>
    e.bank == bank && decide (start < (e.first - 1) * blockSize + 16 + e.length) &&
    decide ((e.first - 1) * blockSize < start + len)

/-- `WRITE` past its gates (R165). -/
def State.takeWrite (s : State) (bank block offset : Nat) (bytes : List Byte) : State :=
  if s.store.locked bank block then s.storeNo "WRITE" "LOCKED" []
  else if !s.store.sound bank block || s.store.overlapsClip bank ((block - 1) * blockSize + offset) bytes.length then
    s.storeNo "WRITE" "STATE" []
  else if (s.store.readBytes (blockBase bank block + offset) bytes.length).any fun b => b != erasedByte then
    s.storeNo "WRITE" "NOT-BLANK" []
  else
    (s.storeTaken.setEngine (.writing (.data bank block offset bytes))).ok "WRITE"
      [fNum bank, fNum block, fNum offset, fNum bytes.length]

/-- `WRITE` (R165). -/
def execWrite (fields : List Text) (s : State) : Host.Outcome State Fault Refusal :=
  .next (s.storeRequest "WRITE" fields writeFields true fun s a => s.takeWrite a.1 a.2.1 a.2.2.1 a.2.2.2)

/-- Reads held for a write are judged again, in list order (R166, R170). -/
def State.rejudgeReads (s : State) : State :=
  (s.store.reads.filter fun r => r.stage == .waitingWrite).foldl (fun s r =>
    let out := s.judgeRead r
    match out.2 with
    | .delivers => out.1.startStream r.prog
    | .refused => out.1.substitute r.prog r.clip (some r.bank) .refused
    | .waits _ => out.1) s

/-- A write into a block has failed (R166). -/
def State.writeFails (s : State) (bank block : Nat) (place : Field) : State :=
  let s := { s with store := s.store.makeUnknown bank block }
  let s := s.dropClips bank block
  let s := { s with store := { s.store with lastError := .writeFailed } }
  (s.raise .writeFailed .store [fNum bank, fNum block, place]).setEngine .ready

/-- A header write completes well: the clip joins the directory (R167). -/
def State.commitDone (s : State) (e : DirEntry) : State :=
  let store := match s.store.block e.bank e.first with
    | none => s.store
    | some b => s.store.putBlock e.bank e.first { b with header := some ⟨e.id, e.length, e.crc⟩ }
  let s := { s with store := { store with directory := putDirEntry e store.directory, engine := .ready } }
  s.raise .clipCommitted .store [fNum e.id, fNum e.bank, fNum e.first]

/-- `WRITE_COMPLETE`: a data or header write ends, and reads held for it are judged again (R166, R167; log 36). -/
def execWriteComplete (good : Bool) (s : State) : Host.Outcome State Fault Refusal :=
  match s.store.engine with
  | .writing (.data bank block offset bytes) =>
    let s := s.beginArrival
    let s := if good then State.setEngine { s with store := s.store.land bank block offset bytes } .ready
      else s.writeFails bank block (fNum offset)
    .next s.rejudgeReads
  | .writing (.header e) =>
    let s := s.beginArrival
    let s := if good then s.commitDone e else s.writeFails e.bank e.first (fWord "HEADER")
    .next s.rejudgeReads
  | _ => .next s

/-- The fields of `COMMIT`; a clip that would run beyond block 16 fails field 4 (R167; log 34). -/
def commitFields (fields : List Text) : Except Nat DirEntry := do
  let id ← field 1 (number 1 127) fields
  let bank ← field 2 (number 1 2) fields
  let first ← field 3 (number 1 16) fields
  let length ← field 4 (number 1 2097136) fields
  if !clipFits first length then .error 4
  let crc ← field 5 checkValue fields
  noMore 5 fields
  return ⟨id, bank, first, length, crc⟩

/-- Whether bytes 0 to 15 of a block are blank (R167; log 8). -/
def ClipStore.headBlank (c : ClipStore) (bank block : Nat) : Bool :=
  (c.headerAt (blockBase bank block)).isNone && c.headUnwritten bank block

/-- `COMMIT` past its gates (R167). -/
def State.takeCommit (s : State) (e : DirEntry) : State :=
  let c := s.store
  if (c.find e.id).isSome then s.storeNo "COMMIT" "DUPLICATE" []
  else if c.locked e.bank e.first then s.storeNo "COMMIT" "LOCKED" []
  else if (touched e.first e.length).any fun b => !c.sound e.bank b || c.directory.any fun x => x.touches e.bank b then
    s.storeNo "COMMIT" "STATE" []
  else if !c.headBlank e.bank e.first then s.storeNo "COMMIT" "NOT-BLANK" []
  else if crc32 (c.dataBytes e.bank e.first e.length) != e.crc then s.storeNo "COMMIT" "CRC" []
  else (s.storeTaken.setEngine (.writing (.header e))).ok "COMMIT" [fNum e.id]

/-- `COMMIT` (R167). -/
def execCommit (fields : List Text) (s : State) : Host.Outcome State Fault Refusal :=
  .next (s.storeRequest "COMMIT" fields commitFields true State.takeCommit)

/-- `LOCKBLK` past its gates (R168). -/
def State.takeLock (s : State) (bank block : Nat) : State :=
  let s := s.storeTaken
  let s := match s.store.block bank block with
    | none => s
    | some b => { s with store := s.store.putBlock bank block { b with locked := true } }
  s.ok "LOCKBLK" [fNum bank, fNum block]

/-- `LOCKBLK` (R168). -/
def execLockblk (fields : List Text) (s : State) : Host.Outcome State Fault Refusal :=
  .next (s.storeRequest "LOCKBLK" fields blockFields true fun s a => s.takeLock a.1 a.2)

/-- `PERMIT` (R162). -/
def execPermit (fields : List Text) (s : State) : Host.Outcome State Fault Refusal :=
  .next (s.storeRequest "PERMIT" fields fields0 true fun s _ =>
    let s := s.storeTaken
    State.ok { s with store := { s.store with permit := true } } "PERMIT" [])

/-! ### Queries (R176, R177) -/

/-- The target and write kind of a write. -/
def WriteJob.fields : WriteJob → List Field
  | .data bank block _ _ => [[[.num bank], [.num block]], fWord "DATA"]
  | .header e => [[[.num e.bank], [.num e.first]], fWord "HEADER"]
  | .regime => [fWord "REGIME", fWord "REGIME"]

/-- The engine's state, target, write kind, erase started-at, suspended-by and read suspensions (R176). -/
def Engine.fields : Engine → List Field
  | .ready => [fWord "READY", fNone, fNone, fNone, fNone, fNone]
  | .erasing j => [fWord "ERASING", [[.num j.bank], [.num j.block]], fNone, fTime j.startedAt, fNone, fNum j.reads]
  | .suspended j cause _ =>
    [fWord "ERASE-SUSPENDED", [[.num j.bank], [.num j.block]], fNone, fTime j.startedAt, fWord cause.name, fNum j.reads]
  | .writing w => [fWord "WRITING"] ++ w.fields ++ [fNone, fNone, fNone]

/-- The last store error; a hyphen for none (R176; log 20). -/
def StoreError.field : StoreError → Field
  | .none => fNone
  | .eraseFailed => fWord "ERASE-FAILED"
  | .writeFailed => fWord "WRITE-FAILED"
  | .aborted => fWord "ABORTED"

/-- One block as `STORE? <bank>` reports it (R176). -/
def ClipStore.blockField (c : ClipStore) (bank block : Nat) : Field :=
  [[.word (if c.locked bank block then "L" else "U")], [.word (if c.sound bank block then "S" else "X")],
   [match c.directory.find? fun e => e.touches bank block with
      | none => .hyphen
      | some e => .num e.id]]

/-- How many reads of a bank are in progress. -/
def ClipStore.readCount (c : ClipStore) (bank : Nat) : Nat := (c.reads.filter fun r => r.bank == bank).length

/-- `STORE?` (R176). -/
def execStoreQuery (fields : List Text) (s : State) : Host.Outcome State Fault Refusal :=
  .next (s.request "STORE?" fields (fieldsOpt (number 1 2)) fun s b =>
    match b with
    | none =>
      s.ok "STORE" (s.store.engine.fields ++ [fFlag s.store.permit, s.store.lastError.field,
        fNum s.store.directory.length, fNum (s.store.readCount 1), fNum (s.store.readCount 2)])
    | some b => s.ok "STORE" (fNum b :: (span 1 16).map (s.store.blockField b)))

/-- One directory entry as `CLIPS` reports it (R177). -/
def DirEntry.field (e : DirEntry) : Field :=
  [[.num e.id], [.num e.bank], [.num e.first], [.num (clipBlocks e.length)], [.num e.length], [.hex 8 e.crc.toNat]]

/-- `CLIPS` (R177). -/
def execClips (fields : List Text) (s : State) : Host.Outcome State Fault Refusal :=
  .next (s.request "CLIPS" fields (fieldsOpt (number 1 127)) fun s start =>
    s.ok "CLIPS" (fNum s.store.directory.length ::
      ((s.store.directory.filter fun e => decide (start.getD 1 ≤ e.id)).take 8).map DirEntry.field))

end Sys2Proof.Machine
end

