-- ==== Sys2Proof/Machine/Image.lean ====
section
/-! DEFINITION. Regime images (chapter 1): reading their bytes, the checks of R1, R2 and R12 in their order, and the regime they spell. -/

namespace Sys2Proof.Machine

/-- An image's bytes with its section list: id, entry count and offset of each section (R1, R2). -/
structure Img where
  bytes : List Byte
  sections : List (Nat × Nat × Nat)
  deriving DecidableEq, Repr

/-- The byte at an offset as a number. -/
def byteAt (bytes : List Byte) (i : Nat) : Nat := (bytes.getD i 0).toNat

/-- A two-byte number, most significant byte first (R1). -/
def halfAt (bytes : List Byte) (i : Nat) : Nat := byteAt bytes i * 256 + byteAt bytes (i + 1)

/-- A four-byte number, most significant byte first (R1). -/
def wordAt (bytes : List Byte) (i : Nat) : Nat := halfAt bytes i * 65536 + halfAt bytes (i + 2)

/-- The CRC-32 of an image, its CRC field taken as zero (R1). -/
def imageCrc (bytes : List Byte) : Crc32 :=
  crc32 (bytes.take 8 ++ [0, 0, 0, 0] ++ bytes.drop 12)

/-- The CRC field of a header (Table 1-1). -/
def crcField (bytes : List Byte) : Crc32 := BitVec.ofNat 32 (wordAt bytes 8)

/-! ### Header and section list -/

/-- The header's conditions, its CRC apart (Table 1-1). -/
def headerGood (bytes : List Byte) : Bool :=
  halfAt bytes 0 == 1 && inRange 88 16384 (wordAt bytes 4) && halfAt bytes 12 == 9 && halfAt bytes 14 == 0

/-- The keyword, the least and greatest entry count and the entry size of a section (Table 1-3). -/
def sectionShape : Nat → Option (Nat × Nat × Nat)
  | 1 => some (1, 64, 7)
  | 2 => some (1, 64, 17)
  | 3 => some (24, 24, 11)
  | 4 => some (8, 8, 2)
  | 5 => some (1, 96, 5)
  | 6 => some (48, 48, 1)
  | 7 => some (8, 8, 8)
  | 8 => some (2, 2, 34)
  | 9 => some (1, 1, 6)
  | _ => none

/-- The size of a section of the list, by its id and entry count. -/
def sectionBytes (id count : Nat) : Nat :=
  match sectionShape id with
  | none => 0
  | some (_, _, size) => count * size

/-- The n-th section list entry, counted from 0, if it keeps every condition of R2 together with the entries before it: of
two entries that clash the later one fails (log 45). -/
def sectionEntry (bytes : List Byte) (earlier : List (Nat × Nat × Nat)) (n : Nat) : Option (Nat × Nat × Nat) :=
  let o := 16 + 8 * n
  let id := byteAt bytes o
  let count := byteAt bytes (o + 1)
  let off := halfAt bytes (o + 4)
  let len := halfAt bytes (o + 6)
  match sectionShape id with
  | none => none
  | some (lo, hi, size) =>
    if halfAt bytes (o + 2) = size ∧ inRange lo hi count ∧ len = count * size ∧ 88 ≤ off ∧ off + len ≤ bytes.length
        ∧ earlier.all (fun e => e.1 != id && (decide (off + len ≤ e.2.2) || decide (e.2.2 + sectionBytes e.1 e.2.1 ≤ off)))
    then some (id, count, off) else none

/-- `k` section list entries from the n-th, or the number of the first that fails (R12). -/
def sectionList (bytes : List Byte) : Nat → Nat → List (Nat × Nat × Nat) → Except Nat (List (Nat × Nat × Nat))
  | 0, _, acc => .ok acc
  | k + 1, n, acc =>
    match sectionEntry bytes acc n with
    | none => .error (n + 1)
    | some e => sectionList bytes k (n + 1) (acc ++ [e])

/-! ### Raw entries -/

/-- The entry count of a section. -/
def Img.count (i : Img) (id : Nat) : Nat :=
  match i.sections.find? fun e => e.1 == id with
  | none => 0
  | some e => e.2.1

/-- The offset of field `f` of entry `n`, counted from 0, of a section. -/
def Img.at (i : Img) (id n f : Nat) : Nat :=
  match i.sections.find? (fun e => e.1 == id), sectionShape id with
  | some e, some (_, _, size) => e.2.2 + n * size + f
  | _, _ => 0

/-- A one-byte field of a raw entry. -/
def Img.byte (i : Img) (id n f : Nat) : Nat := byteAt i.bytes (i.at id n f)

/-- A two-byte field of a raw entry. -/
def Img.half (i : Img) (id n f : Nat) : Nat := halfAt i.bytes (i.at id n f)

/-- Entry numbers of a section, counted from 0. -/
def Img.entries (i : Img) (id : Nat) : List Nat := List.range (i.count id)

/-- Whether floor `n` is present (R3). -/
def Img.floorPresent (i : Img) (n : Nat) : Bool :=
  decide (n < i.count 1) && i.byte 1 n 0 == 1

/-- Whether a present car is in group `g` (R6). In a reference check made before LIFTS is checked, a flag byte other than 0 and 1 counts as absent
(log 55). -/
def Img.groupHasCar (i : Img) (g : Nat) : Bool :=
  (List.range 6).any fun c => i.byte 4 c 0 == 1 && i.byte 4 c 1 == g

/-- Whether a landing is one of a floor served by group `g` (R3, Table 1-9). -/
def Img.landingServed (i : Img) (g l : Nat) : Bool :=
  (i.entries 1).any fun n => i.floorPresent n && i.byte 1 n g == l

/-- Whether a field is a flag (R2). -/
def isFlag (n : Nat) : Bool := decide (n ≤ 1)

/-- Whether door point `d` of the DOORS section is present with this stair number and floor. -/
def Img.doorIs (i : Img) (d stair floor : Nat) : Bool :=
  decide (d ≤ i.count 5) && i.byte 5 (d - 1) 0 == stair && i.byte 5 (d - 1) 1 == floor

/-! ### The checks of each section, entry by entry (R12, Table 1-9) -/

/-- Landing for group g of a present floor. -/
def Img.landingGood (i : Img) (n g : Nat) : Bool :=
  let l := i.byte 1 n g
  l == 0xFF || (decide (l ≤ 63) && i.groupHasCar g &&
    (List.range n).all fun m => !(i.floorPresent m && i.byte 1 m g == l))

/-- Door point of stair s (1 to 3) of a present floor. -/
def Img.floorDoorGood (i : Img) (n s : Nat) : Bool :=
  let d := i.byte 1 n (3 + s)
  d == 0xFF || (inRange 1 96 d && i.doorIs d s n &&
    ((List.range n).all fun m => !(i.floorPresent m && [1, 2, 3].any fun t => i.byte 1 m (3 + t) == d)) &&
    [1, 2, 3].all fun t => !(decide (t < s) && i.byte 1 n (3 + t) == d))

/-- FLOORS entry n (Table 1-4). An AZONES flag byte other than 0 and 1 counts as absent here, before AZONES is checked (log 55). -/
def Img.floorGood (i : Img) (n : Nat) : Bool :=
  let az := i.byte 1 n 3
  isFlag (i.byte 1 n 0) &&
  (i.byte 1 n 0 == 0 ||
    (i.landingGood n 1 && i.landingGood n 2 && (az == 0xFF || (inRange 1 48 az && i.byte 6 (az - 1) 0 == 1)) &&
      [1, 2, 3].all (i.floorDoorGood n)))

/-- ZONES entry n, counted from 0 (Table 1-5). A set byte with a digit beyond its members is out of range (log 41). -/
def Img.zoneGood (i : Img) (n : Nat) : Bool :=
  let fc := i.byte 2 n 1
  inRange 1 64 (i.byte 2 n 0) && (List.range n).all (fun m => i.byte 2 m 0 != i.byte 2 n 0) &&
  inRange 1 4 fc &&
  (List.range fc).all (fun k => i.floorPresent (i.byte 2 n (2 + k)) &&
    (List.range k).all fun j => i.byte 2 n (2 + j) != i.byte 2 n (2 + k)) &&
  inRange 1 16 (i.byte 2 n 6) && decide (i.byte 2 n 7 ≤ 30) && inRange 30 900 (i.half 2 n 8) &&
  [10, 11].all (fun f => decide (i.byte 2 n f ≤ 3) &&
    [1, 2].all fun g => !((i.byte 2 n f).testBit (g - 1)) || i.groupHasCar g) &&
  decide (i.byte 2 n 12 ≤ 7) && decide (i.byte 2 n 13 ≤ 7) &&
  decide (i.byte 2 n 14 ≤ 4) && decide (i.byte 2 n 15 ≤ 4) && isFlag (i.byte 2 n 16)

/-- A cadence window: disabled, or both ends in range with minimum ≤ maximum (R5). -/
def windowGood (a b : Nat) : Bool :=
  (a == 0 && b == 0) || (inRange 50 5000 a && inRange 50 5000 b && decide (a ≤ b))

/-- CHANNELS entry n (Table 1-6). -/
def Img.channelGood (i : Img) (n : Nat) : Bool :=
  isFlag (i.byte 3 n 0) &&
  (i.byte 3 n 0 == 0 ||
    (inRange 1 64 (i.byte 3 n 1) && (i.entries 2).any (fun m => i.byte 2 m 0 == i.byte 3 n 1) &&
      windowGood (i.half 3 n 2) (i.half 3 n 4) && windowGood (i.half 3 n 6) (i.half 3 n 8) &&
      inRange 5 25 (i.byte 3 n 10)))

/-- LIFTS entry n: six cars, then two groups (R6). -/
def Img.liftGood (i : Img) (n : Nat) : Bool :=
  let a := i.byte 4 n 0
  let b := i.byte 4 n 1
  if n < 6 then isFlag a && (a == 0 || inRange 1 2 b)
  else
    let g := n - 5
    !i.groupHasCar g ||
      (decide (a ≤ 63) && i.landingServed g a && (b == 0xFF || (decide (b ≤ 63) && i.landingServed g b)))

/-- DOORS entry n, counted from 0 (Table 1-7). -/
def Img.doorGood (i : Img) (n : Nat) : Bool :=
  let s := i.byte 5 n 0
  let f := i.byte 5 n 1
  decide (s ≤ 3) &&
  (s == 0 ||
    ((f == 0xFF || (i.floorPresent f && i.byte 1 f (3 + s) == n + 1)) && isFlag (i.byte 5 n 2) &&
      inRange 30 600 (i.half 5 n 3)))

/-- AZONES entry n (R8). -/
def Img.azoneGood (i : Img) (n : Nat) : Bool := isFlag (i.byte 6 n 0)

/-- TONES entry n (R9). -/
def Img.toneGood (i : Img) (n : Nat) : Bool :=
  [0, 2].all (fun f => i.half 7 n f == 0 || inRange 200 3000 (i.half 7 n f)) &&
  inRange 50 10000 (i.half 7 n 4) && decide (i.half 7 n 6 ≤ 10000)

/-- A script step slot (Table 1-8). -/
def stepOf (kind number duration : Nat) : Option Step :=
  match kind with
  | 1 => if inRange 1 8 number && inRange 100 10000 duration then some (.tone number duration) else none
  | 2 => if inRange 1 127 number && duration == 0 then some (.clip number) else none
  | 3 => if number == 0 && decide (duration ≤ 10000) then some (.gap duration) else none
  | _ => none

/-- Slot k of SCRIPTS entry n. -/
def Img.slot (i : Img) (n k : Nat) : Option Step :=
  stepOf (i.byte 8 n (2 + 4 * k)) (i.byte 8 n (3 + 4 * k)) (i.half 8 n (4 + 4 * k))

/-- SCRIPTS entry n (R10). -/
def Img.scriptGood (i : Img) (n : Nat) : Bool :=
  inRange 1 8 (i.byte 8 n 0) && (List.range (i.byte 8 n 0)).all fun k => (i.slot n k).isSome

/-- OPTIONS entry n (R11). -/
def Img.optionsGood (i : Img) (n : Nat) : Bool :=
  inRange 1 8 (i.byte 9 n 0) && isFlag (i.byte 9 n 1) && inRange 1000 5000 (i.half 9 n 2) &&
  inRange 500 3000 (i.half 9 n 4)

/-- The first entry of a section that fails its check, as the entry index of Table 1-3. -/
def firstBad (entries : List Nat) (good : Nat → Bool) (base : Nat) (name : SectionName) : Option (SectionName × Nat) :=
  match entries.find? fun n => !good n with
  | none => none
  | some n => some (name, n + base)

/-- The first check of the sections that fails, in id order (R12). -/
def Img.firstFailure (i : Img) : Option (SectionName × Nat) :=
  [firstBad (i.entries 1) i.floorGood 0 .floors, firstBad (i.entries 2) i.zoneGood 1 .zones,
   firstBad (i.entries 3) i.channelGood 1 .channels, firstBad (i.entries 4) i.liftGood 1 .lifts,
   firstBad (i.entries 5) i.doorGood 1 .doors, firstBad (i.entries 6) i.azoneGood 1 .azones,
   firstBad (i.entries 7) i.toneGood 1 .tones, firstBad (i.entries 8) i.scriptGood 1 .scripts,
   firstBad (i.entries 9) i.optionsGood 1 .options].findSome? id

/-! ### The regime an image spells -/

/-- A field whose value may be none (R1). -/
def orNone (n : Nat) : Option Nat := if n = 0xFF then none else some n

/-- The members of a set byte among the numbers 1 to `k` (R2). -/
def setMembers (k n : Nat) : List Nat := (span 1 k).filter fun g => n.testBit (g - 1)

/-- The stairs of a set byte (R2). -/
def stairMembers (n : Nat) : List Stair :=
  (if n.testBit 0 then [Stair.a] else []) ++ (if n.testBit 1 then [Stair.b] else []) ++
  (if n.testBit 2 then [Stair.c] else [])

/-- The stair of a stair number (Table 1-7). -/
def stairOf : Nat → Stair
  | 2 => .b
  | 3 => .c
  | _ => .a

/-- Floor n (R3). -/
def Img.floor (i : Img) (n : Nat) : Option Floor :=
  if i.floorPresent n then
    some { landings := #v[orNone (i.byte 1 n 1), orNone (i.byte 1 n 2)]
           audioZone := orNone (i.byte 1 n 3)
           doors := #v[orNone (i.byte 1 n 4), orNone (i.byte 1 n 5), orNone (i.byte 1 n 6)] }
  else none

/-- Zone z (R4). -/
def Img.zone (i : Img) (z : Nat) : Option ZoneEntry :=
  match (i.entries 2).find? fun n => i.byte 2 n 0 == z with
  | none => none
  | some n =>
    some { floors := (List.range (i.byte 2 n 1)).map fun k => i.byte 2 n (2 + k)
           group := i.byte 2 n 6
           confirmSeconds := i.byte 2 n 7
           windowSeconds := i.half 2 n 8
           recallAlert := setMembers 2 (i.byte 2 n 10)
           recallEvac := setMembers 2 (i.byte 2 n 11)
           stairsAlert := stairMembers (i.byte 2 n 12)
           stairsEvac := stairMembers (i.byte 2 n 13)
           above := i.byte 2 n 14
           below := i.byte 2 n 15
           rest := i.byte 2 n 16 == 1 }

/-- A window of two ends (R5). -/
def windowOf (a b : Nat) : Window := if a = 0 ∧ b = 0 then none else some (a, b)

/-- Channel map entry n, counted from 0 (R5). -/
def Img.channel (i : Img) (n : Nat) : ChanEntry :=
  if i.byte 3 n 0 = 1 then
    { zone := some (i.byte 3 n 1)
      alert := windowOf (i.half 3 n 2) (i.half 3 n 4)
      evac := windowOf (i.half 3 n 6) (i.half 3 n 8)
      tolerance := i.byte 3 n 10 }
  else ⟨none, none, none, 5⟩

/-- The group of car n, counted from 0, if it is present (R6). -/
def Img.car (i : Img) (n : Nat) : Option Nat :=
  if i.byte 4 n 0 = 1 then some (i.byte 4 n 1) else none

/-- Group n, counted from 0, if it has a present car (R6). -/
def Img.group (i : Img) (n : Nat) : Option GroupEntry :=
  if i.groupHasCar (n + 1) then some ⟨i.byte 4 (6 + n) 0, orNone (i.byte 4 (6 + n) 1)⟩ else none

/-- Door point n, counted from 0 (R7). -/
def Img.door (i : Img) (n : Nat) : Option DoorEntry :=
  if n < i.count 5 ∧ i.byte 5 n 0 ≠ 0 then
    some ⟨stairOf (i.byte 5 n 0), orNone (i.byte 5 n 1), i.byte 5 n 2 == 1, i.half 5 n 3⟩
  else none

/-- Tone n, counted from 0 (R9). -/
def Img.tone (i : Img) (n : Nat) : Tone :=
  ⟨i.half 7 n 0, i.half 7 n 2, i.half 7 n 4, i.half 7 n 6⟩

/-- Script n, counted from 0 (R10). -/
def Img.script (i : Img) (n : Nat) : Script :=
  ⟨(List.range (i.byte 8 n 0)).filterMap (i.slot n), i.byte 8 n 1⟩

/-- The regime of a checked image. -/
def Img.regime (i : Img) : Regime :=
  { number := halfAt i.bytes 2
    format := halfAt i.bytes 0
    floors := Vector.ofFn fun k => i.floor k.val
    zones := Vector.ofFn fun k => i.zone (k.val + 1)
    channels := Vector.ofFn fun k => i.channel k.val
    cars := Vector.ofFn fun k => i.car k.val
    groups := Vector.ofFn fun k => i.group k.val
    doors := Vector.ofFn fun k => i.door k.val
    azones := Vector.ofFn fun k => i.byte 6 k.val 0 == 1
    tones := Vector.ofFn fun k => i.tone k.val
    evac := i.script 0
    alert := i.script 1
    options := ⟨i.byte 9 0 0, i.byte 9 0 1 == 1, i.half 9 0 2, i.half 9 0 4⟩ }

/-- The consistency checks of R12 over an image whose CRC has matched: the first that fails, or the regime. -/
def checkImage (bytes : List Byte) : Except (SectionName × Nat) Regime :=
  if headerGood bytes then
    match sectionList bytes 9 0 [] with
    | .error n => .error (.header, n)
    | .ok secs =>
      match (Img.mk bytes secs).firstFailure with
      | some bad => .error bad
      | none => .ok (Img.mk bytes secs).regime
  else .error (.header, 0)

/-- The image in the regime area, if its length lies in range and its CRC matches (R13, R21). -/
def areaImage (area : Mem) : Option (List Byte) :=
  let length := wordAt (area.slice erasedByte 0 16) 4
  if inRange 88 16384 length then
    let bytes := area.slice erasedByte 0 length
    if imageCrc bytes = crcField bytes then some bytes else none
  else none

/-- What the cold-start load finds: OK with the regime, or BLANK, CRC or BAD (R13). A torn area reads as BLANK or CRC (log 7). -/
def loadArea (area : Mem) (torn tornBlank : Bool) : ColdResult × Option Regime :=
  if torn then (if tornBlank then .blank else .crc, none)
  else if (area.slice erasedByte 0 16).all fun b => b == erasedByte then (.blank, none)
  else
    match areaImage area with
    | none => (.crc, none)
    | some bytes =>
      match checkImage bytes with
      | .error (name, n) => (.bad name n, none)
      | .ok r => (.ok, some r)

/-- The keyword of a section (Table 1-3, R12). -/
def SectionName.name : SectionName → String
  | .header => "HEADER" | .floors => "FLOORS" | .zones => "ZONES" | .channels => "CHANNELS" | .lifts => "LIFTS"
  | .doors => "DOORS" | .azones => "AZONES" | .tones => "TONES" | .scripts => "SCRIPTS" | .options => "OPTIONS"

/-- A cold-start result as reply fields (R25, R192; log 20). -/
def ColdResult.fields : ColdResult → List Field
  | .ok => [fWord "OK"]
  | .blank => [fWord "BLANK"]
  | .crc => [fWord "CRC"]
  | .bad name n => [fWord "BAD", fWord name.name, fNum n]

/-- A cold-start result as a trouble detail (R13; log 20). -/
def ColdResult.detail : ColdResult → List Atom
  | .ok => [.word "OK"]
  | .blank => [.word "BLANK"]
  | .crc => [.word "CRC"]
  | .bad name n => [.word "BAD", .word name.name, .num n]

end Sys2Proof.Machine
end

