-- ==== Sys2Proof/Machine/Live.lean ====
section
/-! DEFINITION. The live page input (chapter 7), its requests, and the tenant, programme and audio zone requests (chapter 6). -/

namespace Sys2Proof.Machine

/-! ### The live page (R146 to R155) -/

/-- The keyword of a live state. -/
def LiveState.name : LiveState → String
  | .off => "OFF" | .prefill => "PREFILL" | .running => "RUNNING" | .killed => "KILLED"

/-- LIVE-STATE: the state, and the resync count with KILLED (Table 7-3). -/
def State.raiseLiveState (s : State) : State :=
  s.raise .liveState .live [fWord s.live.state.name, if s.live.state = .killed then fNum s.live.resyncs else fNone]

/-- The live page's claim set is handed to the announcement unit (R155). -/
def State.handLive (s : State) : State :=
  let zs := match s.live.state, s.live.zones with
    | .prefill, some zs | .running, some zs => s.regime.active.presentAzones zs
    | _, _ => []
  s.setClaims .live zs

/-- The history with a resync's time, the last two kept (R152). -/
def pushHistory (h : List Nat) (t : Nat) : List Nat :=
  let h := h ++ [t]
  h.drop (h.length - 2)

/-- A resync is counted and judged; a close one with live kill on kills the page (R152). -/
def State.resync (s : State) : State :=
  let close := match s.live.history.getLast? with
    | none => false
    | some t => decide (s.now ≤ t + 2000)
  let l := { s.live with resyncs := min (s.live.resyncs + 1) 65535, history := pushHistory s.live.history s.now }
  if close && s.regime.active.options.liveKill then
    let s := { s with live := { l with state := .killed, fifo := [], playing := none, playout := none, zones := none } }
    let s := s.handLive.raiseLiveState
    s.enterTrouble .live .liveKilled (some (s.live.history.map Atom.time))
  else { s with live := l }

/-- PREFILL with 12 blocks becomes RUNNING (R149). -/
def State.prefillTest (s : State) : State :=
  if 12 ≤ s.live.fifo.length then
    let s := { s with live := { s.live with
      state := .running, playing := s.live.fifo.head?, fifo := s.live.fifo.tail, playout := some (s.now + 10) } }
    if s.live.resyncs = 0 then s.raiseLiveState else s
  else s

/-- A block arrival is taken by the live state (R146, R149, R151). -/
def State.blockArrives (s : State) (b : Block) : State :=
  match s.live.state with
  | .off | .killed => s
  | .prefill => State.prefillTest { s with live := { s.live with fifo := s.live.fifo ++ [b] } }
  | .running =>
    let q := s.live.fifo ++ [b]
    if s.live.fifo.length < 32 then { s with live := { s.live with fifo := q } }
    else State.resync { s with live := { s.live with fifo := q.drop (q.length - 12) } }

/-- One sample joins the block in gathering; the 80th completes it (R146). -/
def State.gather (s : State) (x : Sample) : State :=
  let g := s.live.gathering ++ [x]
  if g.length < 80 then { s with live := { s.live with gathering := g } }
  else State.blockArrives { s with live := { s.live with gathering := [] } } g

/-- `BLOCK_ARRIVAL`: the samples received; the one that completes the block in gathering makes the arrival (R146; log 35). -/
def execBlockArrival (samples : List Sample) (s : State) : Host.Outcome State Fault Refusal :=
  .next (samples.foldl State.gather s.beginArrival).settleHolders

/-- `PLAYOUT_DEADLINE` (R149, R150). -/
def execPlayoutDeadline (s : State) : Host.Outcome State Fault Refusal :=
  match s.live.playout with
  | none => .next s
  | some d =>
    if d ≤ s.now then
      let s := s.beginArrival
      match s.live.fifo with
      | b :: q => .next { s with live := { s.live with playing := some b, fifo := q, playout := some (d + 10) } }
      | [] =>
        .next (State.resync { s with live := { s.live with state := .prefill, playing := none, playout := none } }).settleHolders
    else .next s

/-- The live page goes to OFF (R154). -/
def State.liveOff (s : State) : State :=
  if s.live.state = .off then s
  else
    let s := { s with live := { LivePage.cold with gathering := s.live.gathering } }
    (s.resolveTrouble .live .liveKilled).raiseLiveState.handLive

/-- A live request's zones: field 1, a set of audio zones. -/
def azoneSet : Text → Option (List Nat) := numberSet 1 48

/-- `LIVE START` once its field has been judged (R148). -/
def State.startLive (s : State) (zs : List Nat) : State :=
  if s.live.state != .off then s.no "LIVE START" "STATE" []
  else if (s.regime.active.presentAzones zs).isEmpty then s.no "LIVE START" "NOT-FOUND" []
  else
    let s := { s with live := { LivePage.cold with state := .prefill, zones := some zs, startedAt := some s.now } }
    s.raiseLiveState.handLive.settleHolders.ok "LIVE START" [fNum (s.regime.active.presentAzones zs).length]

/-- `LIVE START` (R148). -/
def execLiveStart (fields : List Text) (s : State) : Host.Outcome State Fault Refusal :=
  .next (s.request "LIVE START" fields (fields1 azoneSet) State.startLive)

/-- `LIVE ZONES` once its field has been judged (R153). -/
def State.changeLive (s : State) (zs : List Nat) : State :=
  match s.live.state with
  | .off | .killed => s.no "LIVE ZONES" "STATE" []
  | _ =>
    if (s.regime.active.presentAzones zs).isEmpty then s.no "LIVE ZONES" "NOT-FOUND" []
    else
      let s := { s with live := { s.live with zones := some zs } }
      s.handLive.settleHolders.ok "LIVE ZONES" [fNum (s.regime.active.presentAzones zs).length]

/-- `LIVE ZONES` (R153). -/
def execLiveZones (fields : List Text) (s : State) : Host.Outcome State Fault Refusal :=
  .next (s.request "LIVE ZONES" fields (fields1 azoneSet) State.changeLive)

/-- `LIVE STOP` (R154). -/
def execLiveStop (fields : List Text) (s : State) : Host.Outcome State Fault Refusal :=
  .next (s.request "LIVE STOP" fields fields0 fun s _ => s.liveOff.settleHolders.ok "LIVE STOP" [])

/-- Uptimes as a comma list, or a hyphen (R156). -/
def timesField : List Nat → Field
  | [] => fNone
  | ts => [ts.map Atom.time]

/-- `LIVE?` (R156). -/
def execLiveQuery (fields : List Text) (s : State) : Host.Outcome State Fault Refusal :=
  .next (s.request "LIVE?" fields fields0 fun s _ =>
    s.ok "LIVE" [fWord s.live.state.name, match s.live.zones with
        | none => fNone
        | some zs => fSet zs,
      fNum (s.regime.active.presentAzones (s.live.zones.getD [])).length, fNum s.live.fifo.length,
      fOptTime s.live.startedAt, fNum s.live.resyncs, timesField s.live.history,
      fWord (if s.regime.active.options.liveKill then "ON" else "OFF")])

/-! ### Audio zone and programme queries (R136, R137) -/

/-- The floor whose entry names an audio zone (R136), the lowest where several do (log 49). -/
def Regime.floorOfAzone (r : Regime) (a : Nat) : Option Nat :=
  (List.range 64).find? fun f =>
    match (r.floors[f]?).join with
    | none => false
    | some fl => fl.audioZone == some a

/-- The keyword of a claim. -/
def Claim.name : Claim → String
  | .none => "NONE" | .alert => "ALERT" | .evac => "EVAC"

/-- A programme's name, or a hyphen for none. -/
def progField : Option Prog → Field
  | none => fNone
  | some p => fWord (progName p)

/-- Several words as a comma list, or a hyphen for none. -/
def wordsField : List String → Field
  | [] => fNone
  | ws => [ws.map Atom.word]

/-- `AZONE?` (R136). -/
def execAzoneQuery (fields : List Text) (s : State) : Host.Outcome State Fault Refusal :=
  .next (s.request "AZONE?" fields (fields1 (number 1 48)) fun s a =>
    match at1 s.ann.zones a with
    | none => s
    | some z =>
      if s.regime.active.azonePresent a then
        s.ok "AZONE" [fNum a, fFlag true,
          match s.regime.active.floorOfAzone a with
            | some f => fNum f
            | none => fWord "REST",
          fWord (((at1 s.fire.demand.claims a).getD .none).name),
          wordsField (([Prog.live, .evac, .alert, .tenant].filter fun p => (s.prog p).claims.contains a).map progName),
          progField z.holder,
          match z.holder with
            | some p => fWord (s.prog p).state.name
            | none => fNone,
          progField z.previous, fFlag z.preempted, fTime z.heldSince]
      else s.ok "AZONE" [fNum a, fFlag false, fNone, fNone, fNone, fNone, fNone, fNone, fNone, fNone])

/-- The programme a name names (R137). -/
def progWord : Text → Option Prog :=
  wordOf [("LIVE", .live), ("EVAC", .evac), ("ALERT", .alert), ("TENANT", .tenant)]

/-- The kind of a step. -/
def Step.kindName : Step → String
  | .tone _ _ => "TONE" | .clip _ => "CLIP" | .gap _ => "GAP"

/-- The clip read's stage and clip id as reply fields (R137). -/
def readFields : Option ClipRead → List Field
  | none => [fNone, fNone]
  | some (.waiting c _) => [fWord "WAITING", fNum c]
  | some (.streaming c _ _ _) => [fWord "STREAMING", fNum c]
  | some (.substituted c _) => [fWord "SUBSTITUTED", fNum c]

/-- The repeat count of the script a programme plays: present while it plays one (R137). -/
def State.repeatField (s : State) (p : Prog) : Field :=
  match (s.prog p).pass with
  | none => fNone
  | some _ => fNum (s.scriptOf p).repeats

/-- `PROG?` (R137). -/
def execProgQuery (fields : List Text) (s : State) : Host.Outcome State Fault Refusal :=
  .next (s.request "PROG?" fields (fields1 progWord) fun s p =>
    let r := s.prog p
    let kind := match r.step with
      | none => fNone
      | some n =>
        match (s.scriptOf p).steps[n - 1]? with
        | none => fNone
        | some st => fWord st.kindName
    s.ok "PROG" ([fWord (progName p), fWord r.state.name, fNum r.claims.length, fSet r.claims, fOptNum r.step, kind,
      fOptNum r.pass, s.repeatField p, fOptTime r.stepAt] ++ readFields r.read ++ [listField r.missing]))

/-! ### Tenant requests (R138 to R145) -/

/-- The fields of `TENANT`: zones, repeat count, one to eight steps (R138). -/
def tenantFields (fields : List Text) : Except Nat (List Nat × Script) := do
  let zs ← field 1 azoneSet fields
  let rep ← field 2 (number 1 255) fields
  let first ← field 3 tenantStep fields
  let rest ← [4, 5, 6, 7, 8, 9, 10].filterMapM fun n => optField n tenantStep fields
  noMore 10 fields
  return (zs, ⟨first :: rest, rep⟩)

/-- The tickets in use (R139). -/
def AnnUnit.tickets (u : AnnUnit) : List Nat :=
  (u.playing.toList ++ u.queue).map Announcement.ticket

/-- `TENANT` once its fields have been judged (R138). -/
def State.takeTenant (s : State) (zs : List Nat) (script : Script) : State :=
  if s.fire.demand.tenantStop then s.no "TENANT" "INCIDENT" []
  else if (s.regime.active.presentAzones zs).isEmpty then s.no "TENANT" "NOT-FOUND" []
  else if s.ann.playing.isSome ∧ 4 ≤ s.ann.queue.length then s.no "TENANT" "FULL" []
  else
    let t := firstFree s.ann.nextTicket s.ann.tickets
    let a : Announcement := { ticket := t, zones := zs, script := script, enteredAt := s.now, startedAt := none }
    let s := { s with ann := { s.ann with nextTicket := nextOf t } }
    if s.ann.playing.isNone then
      (s.runActs actBound .tenant (.play a)).settleHolders.ok "TENANT" [fNum t, fNum 0]
    else
      let s := { s with ann := { s.ann with queue := s.ann.queue ++ [a] } }
      s.ok "TENANT" [fNum t, fNum s.ann.queue.length]

/-- `TENANT` (R138). -/
def execTenant (fields : List Text) (s : State) : Host.Outcome State Fault Refusal :=
  .next (s.request "TENANT" fields tenantFields fun s a => s.takeTenant a.1 a.2)

/-- `TENANT CANCEL` once its field has been judged (R142). -/
def State.cancelTenant (s : State) (t : Nat) : State :=
  let isPlaying := match s.ann.playing with
    | some a => a.ticket == t
    | none => false
  if isPlaying then
    ((s.endPlaying "CANCELLED").startNext).settleHolders.ok "TENANT CANCEL" [fNum t]
  else if s.ann.queue.any fun a => a.ticket == t then
    let s := { s with ann := { s.ann with queue := s.ann.queue.filter fun a => a.ticket != t } }
    (s.tenantDone t "CANCELLED").ok "TENANT CANCEL" [fNum t]
  else s.no "TENANT CANCEL" "NOT-FOUND" []

/-- `TENANT CANCEL` (R142). -/
def execTenantCancel (fields : List Text) (s : State) : Host.Outcome State Fault Refusal :=
  .next (s.request "TENANT CANCEL" fields (fields1 (number 1 255)) State.cancelTenant)

/-- A step in the form in which it was sent (R145). -/
def Step.field : Step → Field
  | .tone k ms => [[.word "TONE"], [.num k], [.num ms]]
  | .clip c => [[.word "CLIP"], [.num c]]
  | .gap ms => [[.word "GAP"], [.num ms]]

/-- One announcement as reply fields (R145). -/
def Announcement.fields (a : Announcement) (position : Nat) : List Field :=
  [fNum a.ticket, fNum position, fSet a.zones, fNum a.script.repeats, fNum a.script.steps.length] ++
  a.script.steps.map Step.field ++ [fTime a.enteredAt, fOptTime a.startedAt]

/-- The announcement of a ticket with its position: 0 playing, 1 to 4 pending (R145). -/
def AnnUnit.find (u : AnnUnit) (t : Nat) : Option (Announcement × Nat) :=
  ((u.playing.toList.map fun a => (a, 0)) ++ u.queue.mapIdx fun i a => (a, i + 1)).find? fun x => x.1.ticket == t

/-- `TENANT?` (R145). -/
def execTenantQuery (fields : List Text) (s : State) : Host.Outcome State Fault Refusal :=
  .next (s.request "TENANT?" fields (fieldsOpt (number 1 255)) fun s t =>
    match t with
    | none =>
      s.ok "TENANT" [fFlag s.fire.demand.tenantStop, fOptNum (s.ann.playing.map Announcement.ticket),
        fOptNum s.ann.tenant.step, fOptNum s.ann.tenant.pass, fNum s.ann.queue.length,
        match s.ann.queue with
          | [] => fNone
          | q => [q.map fun a => .num a.ticket],
        fNum s.ann.nextTicket]
    | some t =>
      match s.ann.find t with
      | none => s.no "TENANT?" "NOT-FOUND" []
      | some x => s.ok "TENANT" (x.1.fields x.2))

/-! ### Activation (R24, R140, R155) -/

/-- The playing announcement takes its claim set against the new present zones; an empty set ends it (R140). -/
def State.rebindTenant (s : State) : State :=
  match s.ann.playing with
  | none => s
  | some a =>
    let zs := s.regime.active.presentAzones a.zones
    if zs.isEmpty then (s.endPlaying "CANCELLED").startNext else s.setClaims .tenant zs

/-- The announcement unit takes up the new tables (R24). -/
def State.rebindAnnouncements (s : State) : State := s.handLive.rebindTenant

end Sys2Proof.Machine
end

