-- ==== Sys2Proof/Machine/Door.lean ====
section
/-! DEFINITION. The door unit (chapter 5): release demand, bond checks, the re-lock queue, expanders, held-open timing, and its arrivals and requests. -/

namespace Sys2Proof.Machine

/-! ### Records and names -/

/-- A door point's record, if the point is present. -/
def State.point (s : State) (d : Nat) : Option DoorPoint := rec1 s.door.points d

/-- The state with a present door point's record replaced. -/
def State.setPoint (s : State) (d : Nat) (p : DoorPoint) : State :=
  { s with door := { s.door with points := put1 s.door.points d (some p) } }

/-- A door point's regime entry (R7). -/
def Regime.door (r : Regime) (d : Nat) : Option DoorEntry := rec1 r.doors d

/-- The letter of a stair. -/
def Stair.name : Stair → String
  | .a => "A" | .b => "B" | .c => "C"

/-- The keyword of a door state (Table 5-1). -/
def DoorState.name : DoorState → String
  | .secure => "SECURE" | .forced => "FORCED" | .released => "RELEASED" | .closeWait => "CLOSE-WAIT"
  | .relockWait => "RELOCK-WAIT" | .locking => "LOCKING" | .faultLock => "FAULT-LOCK"
  | .faultRelease => "FAULT-RELEASE" | .noScan => "NO-SCAN"

/-- The keyword of a lock command. -/
def LockCommand.name : LockCommand → String
  | .lock => "LOCK" | .release => "RELEASE"

/-- A door's stair and floor as atoms (Table 5-3, Table 5-4). -/
def State.doorPlace (s : State) (d : Nat) : List Atom :=
  match s.regime.active.door d with
  | none => [.hyphen, .hyphen]
  | some e =>
    [.word e.stair.name, match e.floor with
      | none => .hyphen
      | some f => .num f]

/-- The expander that carries a door point (R103). -/
def expanderOf (d : Nat) : Nat := (d + 7) / 8

/-- The door points an expander carries (R103). -/
def pointsOf (e : Nat) : List Nat := span (8 * e - 7) (8 * e)

/-- Whether an expander is configured: it carries a door point of the regime (R103). -/
def Regime.configured (r : Regime) (e : Nat) : Bool := (pointsOf e).any fun d => (r.door d).isSome

/-- The held-open limit of a door point in ms (R7). -/
def State.heldLimit (s : State) (d : Nat) : Nat :=
  match s.regime.active.door d with
  | none => 0
  | some e => e.heldSeconds * 1000

/-! ### Release demand (R108) -/

/-- The released state of a stair in the building demand (Table 3-5). -/
def Demand.stair (d : Demand) : Stair → StairRelease
  | .a => d.stairA
  | .b => d.stairB
  | .c => d.stairC

/-- Whether a present door point is covered by an incident: the demand from an incident holds (R108). -/
def State.covered (s : State) (d : Nat) : Bool :=
  match s.regime.active.door d with
  | none => false
  | some e =>
    match s.fire.demand.stair e.stair with
    | .full => true
    | .reentry => e.reentry
    | .none => false

/-- Whether the release demand of a present door point holds (R108). -/
def State.releaseDemand (s : State) (d : Nat) : Bool :=
  match s.point d with
  | none => false
  | some p => s.control.mode == .starting || s.covered d || p.hostRelease

/-- A point joins the tail of the re-lock queue on entering RELOCK-WAIT (R112). -/
def State.joinRelock (s : State) (d : Nat) (p : DoorPoint) : State :=
  let s := s.setPoint d { p with state := .relockWait }
  { s with door := { s.door with queue := s.door.queue ++ [d] } }

/-- A point leaves the re-lock queue from any position (R112). -/
def State.leaveRelock (s : State) (d : Nat) : State :=
  { s with door := { s.door with queue := s.door.queue.filter fun x => x != d } }

/-- The release demand of a point begins (R109). -/
def State.demandBegins (s : State) (d : Nat) : State :=
  match s.point d with
  | none => s
  | some p =>
    let freed := { p with command := .release, state := .released, check := some ⟨.release, none⟩ }
    match p.state with
    | .secure | .forced | .faultLock => (s.setPoint d freed).resolveTrouble (.door d) .doorFaultLock
    | .locking => s.setPoint d freed
    | .relockWait => (s.setPoint d { p with state := .released }).leaveRelock d
    | .closeWait => s.setPoint d { p with state := .released }
    | _ => s

/-- A released point is no longer demanded: it joins the queue or waits for its door to close (R111). -/
def State.toRelock (s : State) (d : Nat) (p : DoorPoint) : State :=
  if p.closed = some true then s.joinRelock d p else s.setPoint d { p with state := .closeWait }

/-- The release demand of a point ends (R111). -/
def State.demandEnds (s : State) (d : Nat) : State :=
  match s.point d with
  | none => s
  | some p =>
    match p.state with
    | .released | .faultRelease =>
      (s.toRelock d { p with check := none }).resolveTrouble (.door d) .doorFaultRelease
    | _ => s

/-- The release demand of one point, held before or not, is taken as it is now (R108). -/
def State.takeDemand (s : State) (d : Nat) (before : Bool) : State :=
  let after := s.releaseDemand d
  if after && !before then s.demandBegins d
  else if before && !after then s.demandEnds d
  else s

/-- Every present point whose demand differs from the one it had is taken in door point order (R108). -/
def State.reevaluate (s : State) (before : State) : State :=
  (span 1 96).foldl (fun s d => s.takeDemand d (before.releaseDemand d)) s

/-! ### Held-open timing (R116) -/

/-- The flag is set and HELD-OPEN raised. -/
def State.flagHeldOpen (s : State) (d : Nat) (p : DoorPoint) (since : Nat) : State :=
  (s.setPoint d { p with heldFlag := true, heldDeadline := none }).raise .heldOpen (.door d) [fTime since]

/-- One point when store freeze has become false. -/
def State.freezeEndsAt (s : State) (d : Nat) : State :=
  match s.point d with
  | none => s
  | some p =>
    match p.openSince with
    | some t =>
      if p.closed = some false ∧ p.heldFlag = false then
        if t + s.heldLimit d < s.now then s.flagHeldOpen d p t
        else s.setPoint d { p with heldDeadline := some (t + s.heldLimit d) }
      else s
    | none => s

/-- A point has been read: its open-since time, held-open deadline and flag follow (R116). -/
def State.timeOpen (s : State) (d : Nat) : State :=
  match s.point d with
  | none => s
  | some p =>
    if p.closed = some false then
      match p.openSince with
      | some _ => s
      | none =>
        s.setPoint d { p with
          openSince := some s.now
          heldDeadline := if p.heldFlag then none else some (s.now + s.heldLimit d) }
    else
      let s := s.setPoint d { p with openSince := none, heldDeadline := none, heldFlag := false }
      if p.heldFlag then s.raise .heldCleared (.door d) [] else s

/-- The door unit takes a demand change (R108, R116). `before` is the state with the old demand. -/
def State.doorTakes (s : State) (before : State) (old new : Demand) : State :=
  let s := s.reevaluate before
  if old.freeze && !new.freeze then (span 1 96).foldl State.freezeEndsAt s else s

/-! ### Good scans (R103, R106, R110, R114, R115) -/

/-- A point becomes FAULT-LOCK, and its trouble is entered (R114). -/
def State.faultLock (s : State) (d : Nat) (p : DoorPoint) : State :=
  (s.setPoint d { p with state := .faultLock, check := none }).enterTrouble (.door d) .doorFaultLock (some (s.doorPlace d))

/-- The reading of a point whose last command a scan has already written is judged by its state (R110, R111, R114, R115). -/
def State.judgePoint (s : State) (d : Nat) (p : DoorPoint) (bonded closed : Bool) : State :=
  match p.state with
  | .released => if bonded then s else s.setPoint d { p with check := none }
  | .faultRelease =>
    if bonded then s else (s.setPoint d { p with state := .released }).resolveTrouble (.door d) .doorFaultRelease
  | .locking =>
    if !closed then s.setPoint d { p with command := .release, check := none, state := .closeWait }
    else if bonded then s.setPoint d { p with state := .secure, check := none }
    else s
  | .faultLock =>
    if closed && bonded then (s.setPoint d { p with state := .secure }).resolveTrouble (.door d) .doorFaultLock else s
  | .secure =>
    if !closed then
      (s.setPoint d { p with state := .forced }).raise .doorForced (.door d) ((s.doorPlace d).map f1)
    else if !bonded then s.faultLock d p
    else s
  | .forced =>
    if closed && bonded then
      (s.setPoint d { p with state := .secure }).raise .doorSecured (.door d) ((s.doorPlace d).map f1)
    else s
  | .closeWait => if closed then s.joinRelock d p else s
  | .relockWait | .noScan => s

/-- A point takes a good scan's reading: its pending check starts, or its state is judged; then its open door is timed. -/
def State.scanPoint (s : State) (d : Nat) (r : Reading) : State :=
  match s.point d with
  | none => s
  | some p0 =>
    let p := { p0 with bonded := some r.bonded, closed := some r.closed }
    let s := s.setPoint d p
    let s := match p.check with
      | some ⟨k, none⟩ => s.setPoint d { p with check := some ⟨k, some (s.now + 1500)⟩ }
      | _ => s.judgePoint d p r.bonded r.closed
    s.timeOpen d

/-- A point leaves NO-SCAN at the first good scan of its expander (R106). -/
def State.recoverPoint (s : State) (d : Nat) (r : Reading) : State :=
  match s.point d with
  | none => s
  | some p0 =>
    let p := { p0 with bonded := some r.bonded, closed := some r.closed, openSince := none, heldDeadline := none }
    let s := s.setPoint d p
    let s :=
      if s.releaseDemand d then
        s.setPoint d { p with state := .released, check := some ⟨.release, some (s.now + 1500)⟩ }
      else s.toRelock d p
    s.timeOpen d

/-- The eight outputs a scan writes: each present point's command, RELEASE for an absent one (R103). -/
def State.outputsFor (s : State) (e : Nat) : Vector LockCommand 8 :=
  Vector.ofFn fun i =>
    match s.point (8 * e - 7 + i.val) with
    | none => .release
    | some p => p.command

/-- The state with an expander's record replaced. -/
def State.setExpander (s : State) (e : Nat) (x : Expander) : State :=
  { s with door := { s.door with expanders := put1 s.door.expanders e x } }

/-- `GOOD_SCAN` (R103, R104, R106). An expander that is not configured is not scanned. -/
def execGoodScan (e : Nat) (readings : Vector Reading 8) (s : State) : Host.Outcome State Fault Refusal :=
  match at1 s.door.expanders e with
  | none => .next s
  | some x =>
    if s.regime.active.configured e then
      let s := s.beginArrival
      let s := s.setExpander e { up := true, misses := 0, held := s.outputsFor e, lastHeard := some s.now }
      let pts := (pointsOf e).zip readings.toList
      if x.up then .next (pts.foldl (fun s q => s.scanPoint q.1 q.2) s)
      else
        let s := s.resolveTrouble (.expander e) .expanderLost
        .next (pts.foldl (fun s q => s.recoverPoint q.1 q.2) s)
    else .next s

/-- A point of an expander that has been lost (R105). -/
def State.losePoint (s : State) (d : Nat) : State :=
  match s.point d with
  | none => s
  | some p =>
    let s := s.setPoint d { p with
      state := .noScan, command := .release, check := none, heldDeadline := none, openSince := none }
    let s := s.leaveRelock d
    (s.resolveTrouble (.door d) .doorFaultLock).resolveTrouble (.door d) .doorFaultRelease

/-- `SCAN_MISS` (R105): `heard` tells whether the expander received the scan and so took its outputs (R104; log 25). -/
def execScanMiss (e : Nat) (heard : Bool) (s : State) : Host.Outcome State Fault Refusal :=
  match at1 s.door.expanders e with
  | none => .next s
  | some x =>
    if s.regime.active.configured e then
      let s := s.beginArrival
      let x := if heard then { x with held := s.outputsFor e, lastHeard := some s.now } else x
      if x.up then
        if x.misses + 1 < 3 then .next (s.setExpander e { x with misses := x.misses + 1 })
        else
          let s := s.setExpander e { x with misses := 3, up := false }
          let s := s.enterTrouble (.expander e) .expanderLost none
          .next ((pointsOf e).foldl State.losePoint s)
      else .next (s.setExpander e x)
    else .next s

/-! ### Expiries (R110, R113, R114, R116) -/

/-- One point taken from the head of the re-lock queue by pacing (R113). -/
def State.pacePoint (s : State) (d : Nat) : State :=
  match s.point d with
  | none => s
  | some p =>
    if p.closed = some true then
      s.setPoint d { p with command := .lock, state := .locking, check := some ⟨.lock, none⟩ }
    else s.setPoint d { p with state := .closeWait }

/-- `PACING_DEADLINE`: up to eight points from the head of the re-lock queue (R113; log 39). -/
def execPacingDeadline (s : State) : Host.Outcome State Fault Refusal :=
  if s.door.pacing ≤ s.now then
    let s := s.beginArrival
    let taken := s.door.queue.take 8
    let s := { s with door := { s.door with queue := s.door.queue.drop 8, pacing := s.door.pacing + 500 } }
    .next (taken.foldl State.pacePoint s)
  else .next s

/-- Whether a point's bond check of a kind has expired. -/
def DoorPoint.checkDue (p : DoorPoint) (kind : LockCommand) (now : Nat) : Bool :=
  match p.check with
  | none => false
  | some c => c.kind == kind && due now c.deadline

/-- `RELEASE_BOND_CHECK` (R110). -/
def execReleaseBondCheck (d : Nat) (s : State) : Host.Outcome State Fault Refusal :=
  match s.point d with
  | none => .next s
  | some p =>
    if p.checkDue .release s.now then
      let s := s.beginArrival
      if p.bonded = some true then
        .next ((s.setPoint d { p with check := none, state := .faultRelease }).enterTrouble
          (.door d) .doorFaultRelease (some (s.doorPlace d)))
      else .next (s.setPoint d { p with check := none })
    else .next s

/-- `LOCK_BOND_CHECK` (R114). -/
def execLockBondCheck (d : Nat) (s : State) : Host.Outcome State Fault Refusal :=
  match s.point d with
  | none => .next s
  | some p => if p.checkDue .lock s.now then .next (s.beginArrival.faultLock d p) else .next s

/-- `HELD_OPEN_DEADLINE` (R116). -/
def execHeldOpenDeadline (d : Nat) (s : State) : Host.Outcome State Fault Refusal :=
  match s.point d with
  | none => .next s
  | some p =>
    if due s.now p.heldDeadline then
      let s := s.beginArrival
      if s.fire.demand.freeze then .next (s.setPoint d { p with heldDeadline := none })
      else .next (s.flagHeldOpen d p (p.openSince.getD 0))
    else .next s

/-! ### Host requests (R118 to R121) -/

/-- The host release of a present point is written, and a demand that begins or ends is taken. -/
def State.putHost (s : State) (d : Nat) (v : Bool) : State :=
  match s.point d with
  | none => s
  | some p =>
    let before := s.releaseDemand d
    (s.setPoint d { p with hostRelease := v }).takeDemand d before

/-- The present door points of a stair, in door point order. -/
def State.stairPoints (s : State) (st : Stair) : List Nat :=
  (span 1 96).filter fun d =>
    match s.regime.active.door d with
    | none => false
    | some e => e.stair == st

/-- Whether a present point's host release is yes. -/
def State.hostReleased (s : State) (d : Nat) : Bool :=
  match s.point d with
  | none => false
  | some p => p.hostRelease

/-- The keyword of a present point's state. -/
def State.doorStateName (s : State) (d : Nat) : String :=
  match s.point d with
  | none => ""
  | some p => p.state.name

/-- `RELEASE <door>` once its field has been judged (R118). -/
def State.releaseDoor (s : State) (d : Nat) : State :=
  match s.point d with
  | none => s.no "RELEASE" "NOT-FOUND" []
  | some _ =>
    let s := s.putHost d true
    s.ok "RELEASE" [fNum d, fWord (s.doorStateName d)]

/-- `RELEASE STAIR <s>` once its field has been judged (R118). -/
def State.releaseStair (s : State) (st : Stair) : State :=
  let pts := s.stairPoints st
  if pts.isEmpty then s.no "RELEASE" "NOT-FOUND" []
  else
    let n := (pts.filter fun d => !s.hostReleased d).length
    (pts.foldl (fun s d => s.putHost d true) s).ok "RELEASE STAIR" [fWord st.name, fNum n]

/-- `LOCK <door>` once its field has been judged (R119). -/
def State.lockDoor (s : State) (d : Nat) : State :=
  match s.point d with
  | none => s.no "LOCK" "NOT-FOUND" []
  | some _ =>
    if s.covered d then s.no "LOCK" "INCIDENT" []
    else
      let s := s.putHost d false
      s.ok "LOCK" [fNum d, fWord (s.doorStateName d)]

/-- `LOCK STAIR <s>` once its field has been judged (R119). -/
def State.lockStair (s : State) (st : Stair) : State :=
  let pts := s.stairPoints st
  if pts.isEmpty then s.no "LOCK" "NOT-FOUND" []
  else if pts.any s.covered then s.no "LOCK" "INCIDENT" []
  else
    let n := (pts.filter s.hostReleased).length
    (pts.foldl (fun s d => s.putHost d false) s).ok "LOCK STAIR" [fWord st.name, fNum n]

/-- The word that makes a door request act on a stair. -/
def stairKeyword : Text := "STAIR".toList

/-- The stair of a `STAIR` form: field 2 (5.7). -/
def stairFields (fields : List Text) : Except Nat Stair := do
  let st ← field 2 stairWord fields
  noMore 2 fields
  return st

/-- `RELEASE` (R118). With `STAIR` as field 1 it is the stair form (log 40). -/
def execRelease (fields : List Text) (s : State) : Host.Outcome State Fault Refusal :=
  if fields.head? = some stairKeyword then .next (s.request "RELEASE" fields stairFields State.releaseStair)
  else .next (s.request "RELEASE" fields (fields1 (number 1 96)) State.releaseDoor)

/-- `RELEASE STAIR`: the fields are those after the word STAIR (R118; log 40). -/
def execReleaseStair (fields : List Text) (s : State) : Host.Outcome State Fault Refusal :=
  .next (s.request "RELEASE" (stairKeyword :: fields) stairFields State.releaseStair)

/-- `LOCK` (R119). With `STAIR` as field 1 it is the stair form (log 40). -/
def execLockDoor (fields : List Text) (s : State) : Host.Outcome State Fault Refusal :=
  if fields.head? = some stairKeyword then .next (s.request "LOCK" fields stairFields State.lockStair)
  else .next (s.request "LOCK" fields (fields1 (number 1 96)) State.lockDoor)

/-- `LOCK STAIR`: the fields are those after the word STAIR (R119; log 40). -/
def execLockStair (fields : List Text) (s : State) : Host.Outcome State Fault Refusal :=
  .next (s.request "LOCK" (stairKeyword :: fields) stairFields State.lockStair)

/-- The place of a point in the re-lock queue, counted from the head as 1. -/
def State.relockPlace (s : State) (d : Nat) : Option Nat :=
  match s.door.queue.findIdx? fun x => x == d with
  | none => none
  | some i => some (i + 1)

/-- A reading as one of two words, or a hyphen. -/
def readingField (yes no : String) : Option Bool → Field
  | none => fNone
  | some true => fWord yes
  | some false => fWord no

/-- `DOOR?` (R120). -/
def execDoorQuery (fields : List Text) (s : State) : Host.Outcome State Fault Refusal :=
  .next (s.request "DOOR?" fields (fields1 (number 1 96)) fun s d =>
    match s.point d, s.regime.active.door d with
    | some p, some e =>
      let up := match at1 s.door.expanders (expanderOf d) with
        | none => true
        | some x => x.up
      s.ok "DOOR" ([fNum d] ++ (s.doorPlace d).map f1 ++
        [fFlag e.reentry, fNum (expanderOf d), fWord (if up then "UP" else "LOST"), fWord p.state.name,
         fWord p.command.name, readingField "BONDED" "UNBONDED" p.bonded, readingField "CLOSED" "OPEN" p.closed,
         fFlag p.hostRelease, fFlag (s.releaseDemand d), fOptNum (s.relockPlace d), fOptTime p.openSince,
         fFlag p.heldFlag])
    | _, _ => s.no "DOOR?" "NOT-FOUND" [])

/-- The keyword of a stair's released state. -/
def StairRelease.name : StairRelease → String
  | .none => "NONE" | .reentry => "RE-ENTRY" | .full => "FULL"

/-- The states in the order `STAIR?` counts them (R121). -/
def stairCountOrder : List DoorState :=
  [.secure, .forced, .released, .faultRelease, .closeWait, .relockWait, .locking, .faultLock, .noScan]

/-- Whether a point is in a state. -/
def State.inDoorState (s : State) (st : DoorState) (d : Nat) : Bool :=
  match s.point d with
  | none => false
  | some p => p.state == st

/-- `STAIR?` (R121). -/
def execStairQuery (fields : List Text) (s : State) : Host.Outcome State Fault Refusal :=
  .next (s.request "STAIR?" fields (fields1 stairWord) fun s st =>
    let pts := s.stairPoints st
    s.ok "STAIR" [fWord st.name, fWord (s.fire.demand.stair st).name, fNum pts.length,
      fNum (pts.filter s.hostReleased).length,
      stairCountOrder.map fun ds => [.num (pts.filter (s.inDoorState ds)).length],
      fNum s.door.queue.length])

/-! ### Lock outputs (R7, R104) -/

/-- The lock output the part drives for a door point: its command, and RELEASE for an absent point (R7, R103). -/
def State.lockOutput (s : State) (d : Nat) : LockCommand :=
  match s.point d with
  | none => .release
  | some p => p.command

/-- The lock an HJ-608 holds at a point now: what it was last written, and RELEASE after 1 s without a scan (R104). -/
def State.heldLock (s : State) (d : Nat) : LockCommand :=
  match at1 s.door.expanders (expanderOf d) with
  | none => .release
  | some x =>
    match x.lastHeard with
    | none => .release
    | some t => if t + 1000 ≤ s.now then .release else (x.held[(d - 1) % 8]?).getD .release

/-! ### Activation (R24, R103) -/

/-- One expander is re-configured at activation (R103). -/
def State.rebindExpander (old : Regime) (s : State) (e : Nat) : State :=
  match at1 s.door.expanders e with
  | none => s
  | some x =>
    match old.configured e, s.regime.active.configured e with
    | false, true => s.setExpander e { x with up := true, misses := 0 }
    | true, false => s.resolveTrouble (.expander e) .expanderLost
    | _, _ => s

/-- An open door is timed from its original start against the new limit (R24, R116). -/
def State.retime (s : State) (d : Nat) (p : DoorPoint) : State :=
  match p.openSince with
  | some t => if p.heldFlag then s else s.setPoint d { p with heldDeadline := some (t + s.heldLimit d) }
  | none => s

/-- One door point is re-bound at activation (R24). -/
def State.rebindPoint (s : State) (d : Nat) : State :=
  match s.point d, s.regime.active.door d with
  | some p, some _ => s.retime d p
  | some _, none =>
    let s := s.leaveRelock d
    let s := { s with door := { s.door with points := put1 s.door.points d none } }
    (s.resolveTrouble (.door d) .doorFaultLock).resolveTrouble (.door d) .doorFaultRelease
  | none, some _ =>
    let up := match at1 s.door.expanders (expanderOf d) with
      | none => true
      | some x => x.up
    s.setPoint d { DoorPoint.cold with state := if up then .released else .noScan }
  | none, none => s

/-- A newly present point with no demand has its release demand end (R24). -/
def State.settleNewPoint (old : Regime) (s : State) (d : Nat) : State :=
  if (old.door d).isNone && !s.releaseDemand d then s.demandEnds d else s

/-- The door unit is re-bound at activation: every expander, then every door point (R24, R103; log 48). -/
def State.rebindDoors (s : State) (old : Regime) : State :=
  let s := (span 1 12).foldl (State.rebindExpander old) s
  let s := (span 1 96).foldl State.rebindPoint s
  (span 1 96).foldl (State.settleNewPoint old) s

end Sys2Proof.Machine
end

