-- ==== Sys2Proof/Machine/Frames.lean ====
section
/-! DEFINITION. The lift line car frames (10.9): their bytes, the receiver, and the reading of a complete frame. -/

namespace Sys2Proof.Machine

/-- The lead byte (R202). -/
def leadByte : Byte := 0xA5

/-- The sum byte of the bytes before it (R202). -/
def sumByte (bytes : List Byte) : Byte := -(bytes.foldl (· + ·) 0)

/-- A whole frame of a kind and its field bytes (R202, Table 10-6). -/
def frame (kind : Nat) (fields : List Byte) : List Byte :=
  let body := leadByte :: BitVec.ofNat 8 kind :: fields
  body ++ [sumByte body]

/-- A number as a field byte. -/
def fieldByte (n : Nat) : Byte := BitVec.ofNat 8 n

/-- The code of a deny reason (Table 10-7). -/
def DenyReason.code : DenyReason → Nat
  | .notServed => 1 | .noStop => 2 | .full => 3 | .notCrew => 4

/-- The bytes of a frame from the part to an adapter (Table 10-6). -/
def PartFrame.bytes : PartFrame → List Byte
  | .recallTo l => frame 0x41 [fieldByte l]
  | .cancelRecall => frame 0x42 []
  | .release => frame 0x43 []
  | .holdDoors => frame 0x44 []
  | .callGrant l => frame 0x45 [fieldByte l]
  | .callDeny l r => frame 0x46 [fieldByte l, fieldByte r.code]
  | .callCancel l => frame 0x47 [fieldByte l]
  | .callCancelAll => frame 0x48 []

/-- A frame from an adapter to the part (Table 4-1). -/
inductive AdapterFrame where
  | report (r : CarReport)
  | taken (landing : Nat)
  | refused (landing reason : Nat)
  | ask (landing : Nat)
  deriving DecidableEq, Repr

/-- The ranges of an adapter frame's fields (Table 4-1, Table 10-7). -/
def AdapterFrame.wellFormed : AdapterFrame → Bool
  | .report r => r.wellFormed
  | .taken l => inRange 0 63 l
  | .refused l r => inRange 0 63 l && inRange 1 15 r
  | .ask l => inRange 0 63 l

/-- The codes of motion (Table 10-7). -/
def motionCode : Motion → Nat
  | .stopped => 0 | .up => 1 | .down => 2

/-- The codes of doors (Table 10-7). -/
def doorsCode : Doors → Nat
  | .closed => 0 | .opening => 1 | .opened => 2 | .closing => 3

/-- The codes of the crew key (Table 10-7). -/
def crewKeyCode : CrewKey → Nat
  | .off => 0 | .on => 1 | .override => 2

/-- The code of a reported landing (Table 10-7). -/
def landingCode : Option Nat → Nat
  | none => 0x80
  | some l => l

/-- The bytes of a frame from an adapter (Table 10-6). -/
def AdapterFrame.bytes : AdapterFrame → List Byte
  | .report r =>
    frame 0x01 [fieldByte (landingCode r.landing), fieldByte (motionCode r.motion), fieldByte (doorsCode r.doors),
      fieldByte r.inService.toNat, fieldByte (crewKeyCode r.key)]
  | .taken l => frame 0x02 [fieldByte l]
  | .refused l r => frame 0x03 [fieldByte l, fieldByte r]
  | .ask l => frame 0x04 [fieldByte l]

/-- A landing byte of an order or a call. -/
def landingOf (b : Byte) : Option Nat := if b.toNat ≤ 63 then some b.toNat else none

/-- The landing byte of a report: a landing, or BETWEEN. -/
def reportLandingOf (b : Byte) : Option (Option Nat) :=
  if b.toNat = 0x80 then some none else (landingOf b).map some

/-- The motion of a code. -/
def motionOf : Nat → Option Motion
  | 0 => some .stopped | 1 => some .up | 2 => some .down | _ => none

/-- The doors of a code. -/
def doorsOf : Nat → Option Doors
  | 0 => some .closed | 1 => some .opening | 2 => some .opened | 3 => some .closing | _ => none

/-- The in-service flag of a code. -/
def flagOf : Nat → Option Bool
  | 0 => some false | 1 => some true | _ => none

/-- The crew key of a code. -/
def keyOf : Nat → Option CrewKey
  | 0 => some .off | 1 => some .on | 2 => some .override | _ => none

/-- The report of five field bytes, if each lies in range. -/
def reportOf (l m d i k : Byte) : Option CarReport :=
  match reportLandingOf l, motionOf m.toNat, doorsOf d.toNat, flagOf i.toNat, keyOf k.toNat with
  | some l, some m, some d, some i, some k => some ⟨l, m, d, i, k⟩
  | _, _, _, _, _ => none

/-- The adapter frame a kind and its field bytes spell (Table 10-6). -/
def fieldsOf (kind : Nat) (fields : List Byte) : Option AdapterFrame :=
  match kind, fields with
  | 1, [l, m, d, i, k] => (reportOf l m d i k).map .report
  | 2, [l] => (landingOf l).map .taken
  | 3, [l, r] =>
    match landingOf l with
    | none => none
    | some l => if inRange 1 15 r.toNat then some (.refused l r.toNat) else none
  | 4, [l] => (landingOf l).map .ask
  | _, _ => none

/-- A complete frame judged: lead byte, sum, kind, field count and every field's range (R77, R202, R203). -/
def readFrame (bytes : List Byte) : Option AdapterFrame :=
  match bytes with
  | b :: k :: rest =>
    if b = leadByte ∧ bytes.foldl (· + ·) 0 = 0 then fieldsOf k.toNat rest.dropLast else none
  | _ => none

/-- The length of a frame of a kind from an adapter (Table 10-6). -/
def frameLength : Nat → Option Nat
  | 1 => some 8
  | 2 => some 4
  | 3 => some 5
  | 4 => some 4
  | _ => none

/-- One byte at a lift line's receiver: the partial frame after it (R202). A frame that this byte completes has left the receiver. -/
def receiveByte (rx : List Byte) (b : Byte) : List Byte :=
  if b = leadByte then [leadByte]
  else
    match rx with
    | [] => []
    | [_] => if (frameLength b.toNat).isSome then [leadByte, b] else []
    | _ :: k :: _ => if frameLength k.toNat = some (rx.length + 1) then [] else rx ++ [b]

/-- The complete frame that a byte makes of a lift line's partial frame, to be judged by R77 (R202). -/
def completedBy (rx : List Byte) (b : Byte) : Option (List Byte) :=
  if b = leadByte then none
  else
    match rx with
    | _ :: k :: _ => if frameLength k.toNat = some (rx.length + 1) then some (rx ++ [b]) else none
    | _ => none

end Sys2Proof.Machine
end

