-- ==== Sys2Proof/Machine/Lift.lean ====
section
/-! DEFINITION. The lift unit (chapter 4): guards, recalls, aborts, crew service, the violation latch, and its arrivals and requests. -/

namespace Sys2Proof.Machine

/-! ### Records and names -/

/-- A car's record, if the car is present. -/
def State.car (s : State) (n : Nat) : Option Car := rec1 s.lift.cars n

/-- The state with a present car's record replaced. -/
def State.setCar (s : State) (n : Nat) (c : Car) : State :=
  { s with lift := { s.lift with cars := put1 s.lift.cars n (some c) } }

/-- A car's group (R6). -/
def State.carGroup (s : State) (n : Nat) : Nat := (rec1 s.regime.active.cars n).getD 0

/-- A frame is sent to a car (R77). -/
def State.sendFrame (s : State) (n : Nat) (f : PartFrame) : State :=
  { s with lift := { s.lift with sent := s.lift.sent ++ [(n, f)] } }

/-- The keyword of a service. -/
def Service.name : Service → String
  | .tenant => "TENANT" | .recalling => "RECALLING" | .homed => "HOMED" | .crew => "CREW" | .out => "OUT"

/-- The keyword of a recall phase. -/
def Phase.name : Phase → String
  | .sent => "SENT" | .taken => "TAKEN" | .travelling => "TRAVELLING" | .arrived => "ARRIVED"

/-- The keyword of an abort code (Table 4-5). -/
def AbortCode.name : AbortCode → String
  | .noTake => "NO-TAKE" | .refused => "REFUSED" | .noStart => "NO-START" | .noArrive => "NO-ARRIVE"
  | .wrongLanding => "WRONG-LANDING" | .noDoors => "NO-DOORS" | .carFault => "CAR-FAULT"
  | .linkLost => "LINK-LOST" | .noSafeLanding => "NO-SAFE-LANDING"

/-- The keyword of a violation kind. -/
def ViolationKind.name : ViolationKind → String
  | .deniedNoStop => "DENIED-NO-STOP" | .watched => "WATCHED" | .doorsAtNoStop => "DOORS-AT-NO-STOP"

/-- The keyword of a crew key position. -/
def crewKeyName : CrewKey → String
  | .off => "OFF" | .on => "ON" | .override => "OVERRIDE"

/-- The keyword of a motion. -/
def motionName : Motion → String
  | .stopped => "STOPPED" | .up => "UP" | .down => "DOWN"

/-- The keyword of a door position. -/
def doorsName : Doors → String
  | .closed => "CLOSED" | .opening => "OPENING" | .opened => "OPEN" | .closing => "CLOSING"

/-! ### Guards (R81, R85) -/

/-- A floor of the floor map. -/
def Regime.floor (r : Regime) (f : Nat) : Option Floor := (r.floors[f]?).join

/-- A present floor's landing for a group (R3). -/
def Floor.landing (fl : Floor) (g : Nat) : Option Nat := (at1 fl.landings g).join

/-- The floor whose landing for a group is `l` (R81). -/
def Regime.floorOfLanding (r : Regime) (g l : Nat) : Option Nat :=
  (List.range 64).find? fun f =>
    match r.floor f with
    | none => false
    | some fl => fl.landing g == some l

/-- The landings a group serves, in floor order (R3). -/
def Regime.served (r : Regime) (g : Nat) : List Nat :=
  (List.range 64).filterMap fun f =>
    match r.floor f with
    | none => none
    | some fl => fl.landing g

/-- A floor's marks. -/
def LiftUnit.guard (u : LiftUnit) (f : Nat) : Guard := (u.guards[f]?).getD Guard.clear

/-- Effective NO-STOP (R81). -/
def Guard.noStop (g : Guard) : Bool := g.incident || g.host

/-- The marks of a landing of a group: those of its floor, if it has one (R81). -/
def State.landingGuard (s : State) (g l : Nat) : Guard :=
  match s.regime.active.floorOfLanding g l with
  | none => Guard.clear
  | some f => s.lift.guard f

/-- Whether a landing of a group is under effective NO-STOP. -/
def State.barred (s : State) (g l : Nat) : Bool := (s.landingGuard g l).noStop

/-- The served landings of a group not under effective NO-STOP. -/
def State.freeLandings (s : State) (g : Nat) : List Nat :=
  (s.regime.active.served g).filter fun l => !s.barred g l

/-- The recall target of a group (R85). -/
def State.recallTarget (s : State) (g : Nat) : Option Nat :=
  match rec1 s.regime.active.groups g with
  | none => none
  | some ge =>
    if !s.barred g ge.home then some ge.home
    else
      match ge.alternate.filter fun l => !s.barred g l with
      | some l => some l
      | none => least (s.freeLandings g)

/-! ### The violation latch (R101) -/

/-- A violation is taken (R101). -/
def State.violate (s : State) (n landing : Nat) (kind : ViolationKind) : State :=
  match s.lift.latch with
  | some _ => s
  | none =>
    let s := { s with lift := { s.lift with latch := some ⟨n, landing, kind, s.now⟩ } }
    s.raise .guardViolation (.car n) [fNum landing, fWord kind.name]

/-! ### Recalls, aborts and recovery (R86, R91 to R95) -/

/-- A car record with no recall (R91, R93). -/
def Car.settled (c : Car) (service : Service) : Car :=
  { c with
    service := service, target := none, phase := none, late := none, startLanding := none, phaseDeadline := none, calls := [] }

/-- CAR-SERVICE for a car as it stands (Table 4-6; log 20): the target in RECALLING and HOMED, else the last landing. -/
def State.raiseCarService (s : State) (n : Nat) (c : Car) : State :=
  let place := match c.target with
    | some t => some t
    | none => c.lastLanding
  let code := match c.service, c.lastAbort with
    | .out, some a => fWord a.code.name
    | _, _ => fNone
  s.raise .carService (.car n) [fWord c.service.name, fOptNum place, code]

/-- A car is aborted (R91). A car already OUT is not. -/
def State.abortCar (s : State) (n : Nat) (c : Car) (code : AbortCode) (reason : Option Nat) : State :=
  if c.service = .out then s
  else
    let s := match c.service with
      | .recalling => s.sendFrame n .cancelRecall
      | .crew => s.sendFrame n .callCancelAll
      | _ => s
    let c' := { c.settled .out with lastAbort := some ⟨code, reason, c.lastLanding, s.now⟩ }
    let s := (s.setCar n c').enterTrouble (.car n) .liftOut (some [.word code.name])
    s.raiseCarService n c'

/-- A car bound for a target: RECALL is sent and the phase is SENT (R86, R94). -/
def Car.bound (c : Car) (target now : Nat) : Car :=
  { c.settled .recalling with target := some target, phase := some .sent, phaseDeadline := some (now + 1000) }

/-- A car enters RECALLING, or is aborted NO-SAFE-LANDING when there is no target (R86, R93, R95, R99). -/
def State.sendToRecall (s : State) (n : Nat) (c : Car) : State :=
  match s.recallTarget (s.carGroup n) with
  | none => s.abortCar n c .noSafeLanding none
  | some t =>
    let c' := c.bound t s.now
    ((s.setCar n c').sendFrame n (.recallTo t)).raiseCarService n c'

/-- The demand is applied to a car whose group is in the recall groups (R93). -/
def State.applyRecall (s : State) (n : Nat) (c : Car) : State :=
  match c.service with
  | .tenant => if c.linkUp then s.sendToRecall n c else s.abortCar n c .linkLost none
  | _ => s

/-- The demand is applied to a car whose group has left the recall groups (R93). -/
def State.applyLeft (s : State) (n : Nat) (c : Car) : State :=
  let c' := c.settled .tenant
  match c.service with
  | .recalling => ((s.setCar n c').sendFrame n .cancelRecall).raiseCarService n c'
  | .homed => ((s.setCar n c').sendFrame n .release).raiseCarService n c'
  | _ => s

/-- A car leaves OUT, and the demand is applied to it again (R92). -/
def State.leaveOut (s : State) (n : Nat) (c : Car) : State :=
  let c' := { c with service := .tenant }
  let s := ((s.setCar n c').resolveTrouble (.car n) .liftOut).raiseCarService n c'
  if s.fire.demand.recallGroups.contains (s.carGroup n) then s.applyRecall n c' else s

/-- Whether an OUT car's last abort is NO-SAFE-LANDING. -/
def Car.outUnsafe (c : Car) : Bool :=
  c.service == .out &&
  match c.lastAbort with
  | some a => a.code == .noSafeLanding
  | none => false

/-- The old target at which the arrival report of a car re-targeted from `old` to `new` may still come: `old` if its RECALL had been taken and the car
had not arrived, and in SENT the one that was due before (R94; log 61). -/
def Car.lateAfter (c : Car) (old new : Nat) : Option Nat :=
  let l := match c.phase with
    | some .taken | some .travelling => some old
    | some .sent => c.late
    | _ => none
  if l = some new then none else l

/-- A RECALLING car whose target is barred is re-targeted (R94). -/
def State.retarget (s : State) (n : Nat) (c : Car) (old : Nat) : State :=
  match s.recallTarget (s.carGroup n) with
  | none => s.abortCar n c .noSafeLanding none
  | some t =>
    let s := (s.setCar n { c.bound t s.now with late := c.lateAfter old t }).sendFrame n (.recallTo t)
    s.raise .carRetargeted (.car n) [fNum old, fNum t]

/-- The listed landings of a CREW car now under effective NO-STOP are cancelled, in list order (R98). -/
def State.cancelBarred (s : State) (n : Nat) (c : Car) : State :=
  let g := s.carGroup n
  let bad := c.calls.filter fun l => s.barred g l
  let s := s.setCar n { c with calls := c.calls.filter fun l => !s.barred g l }
  bad.foldl (fun s l =>
    (s.sendFrame n (.callCancel l)).raise .callCancelled (.car n) [fNum l, fWord "NO-STOP"]) s

/-- The crew key as last reported. -/
def Car.key (c : Car) : CrewKey :=
  match c.report with
  | none => .off
  | some r => r.key

/-- One car takes a guard change (R82). -/
def State.carTakesGuards (s : State) (n : Nat) : State :=
  match s.car n with
  | none => s
  | some c =>
    let g := s.carGroup n
    match c.service, c.target with
    | .recalling, some t => if s.barred g t then s.retarget n c t else s
    | .homed, some t => if s.barred g t then s.sendToRecall n c else s
    | .crew, _ => if c.key = .override then s else s.cancelBarred n c
    | .out, _ => if c.outUnsafe && !(s.freeLandings g).isEmpty then s.leaveOut n c else s
    | _, _ => s

/-- A guard change is taken for each present car in order (R82). -/
def State.guardChange (s : State) : State :=
  (span 1 6).foldl State.carTakesGuards s

/-- The guard table as far as a guard change reads it: effective NO-STOP and WATCH of each floor. -/
def LiftUnit.marks (u : LiftUnit) : List (Bool × Bool) :=
  u.guards.toList.map fun g => (g.noStop, g.watch)

/-- The state with the guard table replaced, and the guard change taken if there is one (R82). -/
def State.setGuards (s : State) (gs : Vector Guard 64) : State :=
  let s' := { s with lift := { s.lift with guards := gs } }
  if s'.lift.marks = s.lift.marks then s' else s'.guardChange

/-- The guard table with incident NO-STOP on the present floors among the guard floors, and nowhere else (R82). -/
def State.incidentGuards (s : State) (floors : List Nat) : Vector Guard 64 :=
  s.lift.guards.mapIdx fun i g =>
    { g with incident := (s.regime.active.floor i).isSome && floors.contains i }

/-- One car takes a change of the recall groups (R93). -/
def State.carTakesRecall (old : List Nat) (s : State) (n : Nat) : State :=
  match s.car n with
  | none => s
  | some c =>
    let g := s.carGroup n
    if s.fire.demand.recallGroups.contains g then s.applyRecall n c
    else if old.contains g then s.applyLeft n c
    else s

/-- The lift unit takes a demand change: guards first, then the recall groups (R82, R93). -/
def State.liftTakes (s : State) (old new : Demand) : State :=
  let s := s.setGuards (s.incidentGuards new.guardFloors)
  if old.recallGroups = new.recallGroups then s
  else (span 1 6).foldl (State.carTakesRecall old.recallGroups) s

/-! ### Phases (R87 to R89) -/

/-- Whether a report shows a landing and STOPPED. -/
def stoppedAt (r : CarReport) (l : Nat) : Bool :=
  r.landing == some l && r.motion == Motion.stopped

/-- A car becomes HOMED (R89). -/
def State.becomeHomed (s : State) (n : Nat) (c : Car) : State :=
  let c' := { c with service := .homed, phase := none, startLanding := none, phaseDeadline := none }
  ((s.setCar n c').sendFrame n .holdDoors).raiseCarService n c'

/-- A car enters ARRIVED, and goes on to HOMED if its doors are open (R89; log 12). -/
def State.enterArrived (s : State) (n : Nat) (c : Car) (r : CarReport) : State :=
  let c' := { c with phase := some .arrived, startLanding := none, phaseDeadline := some (s.now + 6000) }
  if r.doors = .opened then s.becomeHomed n c' else s.setCar n c'

/-- The landing numbers strictly between two landings (R88). -/
def between (a b : Nat) : Nat := (max a b - min a b) - 1

/-- A car enters TRAVELLING from a start landing, by a report taken at `at0` (R88). -/
def Car.travelling (c : Car) (start at0 : Nat) : Car :=
  { c with phase := some .travelling, startLanding := some start
           phaseDeadline := some (at0 + 8000 + 2000 * between start (c.target.getD start)) }

/-- The car's start landing: its last landing, or a free value when it has reported none (R87; log 11). -/
def State.startLandingOf (s : State) (c : Car) : State × Nat :=
  match c.lastLanding with
  | some l => (s, l)
  | none => ({ s with freeCount := s.freeCount + 1 }, (Config.unreportedStartLanding s.freeCount).toNat)

/-- Phase TAKEN looks at a report (R87). -/
def State.lookTaken (s : State) (n : Nat) (c : Car) (target : Nat) (r : CarReport) : State :=
  if stoppedAt r target then s.enterArrived n c r
  else
    match r.motion with
    | .stopped => s
    | _ =>
      let out := s.startLandingOf c
      out.1.setCar n (c.travelling out.2 c.reportAt)

/-- Phase TRAVELLING takes a report (R88); `opens` tells that the doors changed to OPENING. -/
def State.lookTravelling (s : State) (n : Nat) (c : Car) (target : Nat) (r : CarReport) (opens : Bool) : State :=
  if stoppedAt r target then s.enterArrived n c r
  else if r.motion = Motion.stopped ∧ r.landing.isSome ∧ opens then s.abortCar n c .wrongLanding none
  else s

/-- Phase SENT takes a report. The arrival report at the target that a guard has taken away is a stop at another landing: doors changing to OPENING
abort the car (R88, R94). It is due once; no other report concerns the phase (log 61). -/
def State.lookSent (s : State) (n : Nat) (c : Car) (r : CarReport) (opens : Bool) : State :=
  if c.late.any (stoppedAt r) then
    let c' := { c with late := none }
    if opens then s.abortCar n c' .wrongLanding none else s.setCar n c'
  else s

/-- Phase ARRIVED takes a report: doors OPEN first, then motion (R89). -/
def State.lookArrived (s : State) (n : Nat) (c : Car) (target : Nat) (r : CarReport) : State :=
  if r.doors = .opened then s.becomeHomed n c
  else if r.motion != Motion.stopped then s.setCar n (c.travelling target s.now)
  else s

/-- A RECALLING car takes a report by its phase (R87 to R90, R94). -/
def State.recallingTakes (s : State) (n : Nat) (c : Car) (r : CarReport) (opens : Bool) : State :=
  if !r.inService then s.abortCar n c .carFault none
  else
    let t := c.target.getD 0
    match c.phase with
    | some .sent => s.lookSent n c r opens
    | some .taken => s.lookTaken n c t r
    | some .travelling => s.lookTravelling n c t r opens
    | some .arrived => s.lookArrived n c t r
    | none => s

/-- A HOMED car takes a report (R90). -/
def State.homedTakes (s : State) (n : Nat) (c : Car) (r : CarReport) : State :=
  if !r.inService then s.abortCar n c .carFault none
  else if r.motion != Motion.stopped then s.sendToRecall n c
  else s

/-- A CREW car takes a report: in-service no aborts it, a served landing leaves its call list (R98, R99). -/
def State.crewTakes (s : State) (n : Nat) (c : Car) (r : CarReport) (opens : Bool) : State :=
  if !r.inService then s.abortCar n c .carFault none
  else
    match r.landing with
    | some l =>
      if r.motion = Motion.stopped ∧ opens then s.setCar n { c with calls := c.calls.filter fun x => x != l } else s
    | none => s

/-- The rules of the car's service take a report (R78 point 3). `before` is the report held before. -/
def State.serviceTakes (s : State) (n : Nat) (c : Car) (before : Option CarReport) (r : CarReport) (opens : Bool) : State :=
  match c.service with
  | .recalling => s.recallingTakes n c r opens
  | .homed => s.homedTakes n c r
  | .crew => s.crewTakes n c r opens
  | .out =>
    let was := match before with
      | none => false
      | some b => b.inService
    if r.inService && !was then s.leaveOut n c else s
  | .tenant => s

/-- A CREW car whose key is OFF leaves crew service (R99; log 23). -/
def State.leaveCrew (s : State) (n : Nat) (c : Car) : State :=
  let g := s.carGroup n
  if s.fire.demand.recallGroups.contains g then
    match s.recallTarget g with
    | none => s.abortCar n c .noSafeLanding none
    | some _ => (s.sendFrame n .callCancelAll).sendToRecall n c
  else
    let c' := c.settled .tenant
    (((s.sendFrame n .callCancelAll).setCar n c').sendFrame n .release).raiseCarService n c'

/-- The crew key rules take a report (R78 point 4, R96, R98, R99). -/
def State.keyTakes (s : State) (n : Nat) (c : Car) (before : Option CarReport) (key : CrewKey) : State :=
  match key with
  | .off =>
    let c' := { c with keyIgnored := false }
    if c.service = .crew then (s.setCar n c').leaveCrew n c' else s.setCar n c'
  | _ =>
    match c.service with
    | .homed =>
      let c' := { c.settled .crew with keyIgnored := false }
      (s.setCar n c').raiseCarService n c'
    | .crew =>
      let was := match before with
        | none => CrewKey.off
        | some b => b.key
      if key = .on ∧ was = .override then s.cancelBarred n c else s
    | sv =>
      if c.keyIgnored then s
      else
        (s.setCar n { c with keyIgnored := true }).raise .crewKeyIgnored (.car n) [fWord (crewKeyName key), fWord sv.name]

/-! ### Arrivals on the lift lines -/

/-- A lift line's receiver takes a value (R202). -/
def State.setRx (s : State) (n : Nat) (rx : List Byte) : State :=
  { s with lift := { s.lift with rx := put1 s.lift.rx n rx } }

/-- The report is written into the record: fields, link deadline, last landing (R78). -/
def Car.reported (c : Car) (r : CarReport) (now : Nat) : Car :=
  { c with
    report := some r
    reportAt := now
    linkDeadline := some (now + 1000)
    lastLanding := match r.landing with
      | some l => some l
      | none => c.lastLanding }

/-- Whether the doors change to OPENING in a report (R78, R100). -/
def opensDoors (before : Option CarReport) (r : CarReport) : Bool :=
  r.doors == Doors.opening &&
  match before with
  | none => true
  | some b => b.doors != Doors.opening

/-- A report that differs from the one before is taken by the rules it concerns, in the order of R78: the doors, the service, the key. -/
def State.newReport (s : State) (n : Nat) (c : Car) (before : Option CarReport) (r : CarReport) : State :=
  let opens := opensDoors before r
  let s := match r.landing with
    | some l =>
      if opens && s.barred (s.carGroup n) l && r.key != CrewKey.override then s.violate n l .doorsAtNoStop else s
    | none => s
  let s := s.serviceTakes n c before r opens
  match s.car n with
  | none => s
  | some c2 => s.keyTakes n c2 before r.key

/-- A valid CAR REPORT of a present car is taken: the record and the link, then the rules of R78. A report identical to the one before changes
nothing but the link deadline and, where it is LOST, the link (R78, R79; log 13). -/
def State.takeReport (s : State) (n : Nat) (c : Car) (r : CarReport) : State :=
  let c1 := { c.reported r s.now with linkUp := true }
  let s := s.setCar n c1
  let s := if c.linkUp then s else s.resolveTrouble (.car n) .liftLost
  if c.report = some r then s else s.newReport n c1 c.report r

/-- Whether an answer to RECALL is taken: the link UP, phase SENT, and the target named (R77, R86). -/
def Car.awaits (c : Car) (landing : Nat) : Bool :=
  c.linkUp && c.service == .recalling && c.phase == some .sent && c.target == some landing

/-- ORDER TAKEN is taken (R86, R87). -/
def State.takeTaken (s : State) (n : Nat) (c : Car) (landing : Nat) : State :=
  if c.awaits landing then
    let c' := { c with phase := some .taken, late := none, phaseDeadline := some (s.now + 10000) }
    let s := s.setCar n c'
    match c.report with
    | none => s
    | some r => s.lookTaken n c' landing r
  else s

/-- ORDER REFUSED is taken (R86). -/
def State.takeRefused (s : State) (n : Nat) (c : Car) (landing reason : Nat) : State :=
  if c.awaits landing then s.abortCar n c .refused (some reason) else s

/-- A CREW car's call is judged (R97). -/
def State.judgeCall (s : State) (n l : Nat) (c : Car) : State :=
  let g := s.carGroup n
  let barred := s.barred g l
  let watched (s : State) : State :=
    if (s.landingGuard g l).watch || barred then s.violate n l .watched else s
  if !(s.regime.active.served g).contains l then s.sendFrame n (.callDeny l .notServed)
  else if barred && c.key != CrewKey.override then (s.sendFrame n (.callDeny l .noStop)).violate n l .deniedNoStop
  else if c.calls.contains l then watched (s.sendFrame n (.callGrant l))
  else if 8 ≤ c.calls.length then s.sendFrame n (.callDeny l .full)
  else watched ((s.sendFrame n (.callGrant l)).setCar n { c with calls := c.calls ++ [l] })

/-- CALL ASK is taken while the link is UP (R77, R97). -/
def State.takeAsk (s : State) (n : Nat) (c : Car) (landing : Nat) : State :=
  if !c.linkUp then s
  else if c.service = .crew then s.judgeCall n landing c
  else s.sendFrame n (.callDeny landing .notCrew)

/-- A complete frame is judged: one for a car not present, or with a field out of range, is discarded; else it is taken (R6, R77). -/
def State.judgeFrame (s : State) (n : Nat) (f : AdapterFrame) : State :=
  match s.car n with
  | none => s
  | some c =>
    if f.wellFormed then
      match f with
      | .report r => s.takeReport n c r
      | .taken l => s.takeTaken n c l
      | .refused l reason => s.takeRefused n c l reason
      | .ask l => s.takeAsk n c l
    else s

/-- A whole frame arrives on a lift line: any partial frame before it is discarded, the receiver hunts again, the frame is judged (R202). -/
def State.frameArrives (s : State) (n : Nat) (f : AdapterFrame) : State := (s.beginArrival.setRx n []).judgeFrame n f

/-- `CAR_REPORT` (R78). -/
def execCarReport (n : Nat) (r : CarReport) (s : State) : Host.Outcome State Fault Refusal := .next (s.frameArrives n (.report r))

/-- `ORDER_TAKEN` (R86, R87). -/
def execOrderTaken (n landing : Nat) (s : State) : Host.Outcome State Fault Refusal := .next (s.frameArrives n (.taken landing))

/-- `ORDER_REFUSED` (R86). -/
def execOrderRefused (n landing reason : Nat) (s : State) : Host.Outcome State Fault Refusal :=
  .next (s.frameArrives n (.refused landing reason))

/-- `CALL_ASK` (R97). -/
def execCallAsk (n landing : Nat) (s : State) : Host.Outcome State Fault Refusal := .next (s.frameArrives n (.ask landing))

/-- One byte at a lift line: the receiver takes it, and a frame it completes is judged (R202). -/
def State.receiveOn (n : Nat) (s : State) (b : Byte) : State :=
  match at1 s.lift.rx n with
  | none => s
  | some rx =>
    let s := s.setRx n (receiveByte rx b)
    match (completedBy rx b).bind readFrame with
    | none => s
    | some f => s.judgeFrame n f

/-- `INVALID_FRAME`: bytes that are no whole valid frame by themselves pass the receiver; a frame they complete is judged (R77, R202; log 33). -/
def execInvalidFrame (n : Nat) (bytes : List Byte) (s : State) : Host.Outcome State Fault Refusal :=
  .next (bytes.foldl (State.receiveOn n) s.beginArrival)

/-- `FRAME_GAP_TIMEOUT`: the partial frame is discarded and hunting resumes (R202). -/
def execFrameGapTimeout (n : Nat) (s : State) : Host.Outcome State Fault Refusal :=
  .next (s.beginArrival.setRx n [])

/-- `LINK_DEADLINE` (R79). -/
def execLinkDeadline (n : Nat) (s : State) : Host.Outcome State Fault Refusal :=
  match s.car n with
  | none => .next s
  | some c =>
    if due s.now c.linkDeadline then
      let c' := { c with linkDeadline := none, linkUp := false }
      let s := (s.beginArrival.setCar n c').enterTrouble (.car n) .liftLost none
      match c.service with
      | .recalling | .homed | .crew => if c.linkUp then .next (s.abortCar n c' .linkLost none) else .next s
      | _ => .next s
    else .next s

/-- The abort code of a phase's deadline (Table 4-4). -/
def Phase.abortCode : Phase → AbortCode
  | .sent => .noTake | .taken => .noStart | .travelling => .noArrive | .arrived => .noDoors

/-- `PHASE_DEADLINE` (R86 to R89, Table 4-4). -/
def execPhaseDeadline (n : Nat) (s : State) : Host.Outcome State Fault Refusal :=
  match s.car n with
  | none => .next s
  | some c =>
    match c.phase with
    | some p => if due s.now c.phaseDeadline then .next (s.beginArrival.abortCar n c p.abortCode none) else .next s
    | none => .next s

/-! ### Guard, latch and car requests (R83, R84, R101, R102) -/

/-- The host marks a request names. -/
inductive HostMark where
  | noStop | watch
  deriving DecidableEq, Repr

/-- The second field of `GUARD SET` and `GUARD CLR`. -/
def hostMark : Text → Option HostMark := wordOf [("NOSTOP", .noStop), ("WATCH", .watch)]

/-- A guard with a host mark set or cleared. -/
def Guard.put (g : Guard) (m : HostMark) (v : Bool) : Guard :=
  match m with
  | .noStop => { g with host := v }
  | .watch => { g with watch := v }

/-- The reply of a guard request (R83). -/
def State.guardReply (s : State) (f : Nat) : State :=
  let g := s.lift.guard f
  s.ok "GUARD" [fNum f, fFlag g.incident, fFlag g.host, fFlag g.watch]

/-- A guard request is taken (R83). -/
def State.putHostMark (s : State) (kw : String) (f : Nat) (m : HostMark) (v : Bool) : State :=
  match s.regime.active.floor f with
  | none => s.no kw "NOT-FOUND" []
  | some _ => (s.setGuards (s.lift.guards.setIfInBounds f ((s.lift.guard f).put m v))).guardReply f

/-- `GUARD SET` (R83). -/
def execGuardSet (fields : List Text) (s : State) : Host.Outcome State Fault Refusal :=
  .next (s.request "GUARD SET" fields (fields2 (number 0 63) hostMark) fun s a => s.putHostMark "GUARD SET" a.1 a.2 true)

/-- `GUARD CLR` (R83). -/
def execGuardClr (fields : List Text) (s : State) : Host.Outcome State Fault Refusal :=
  .next (s.request "GUARD CLR" fields (fields2 (number 0 63) hostMark) fun s a => s.putHostMark "GUARD CLR" a.1 a.2 false)

/-- `GUARD?` (R84). -/
def execGuardQuery (fields : List Text) (s : State) : Host.Outcome State Fault Refusal :=
  .next (s.request "GUARD?" fields (fields1 (number 0 63)) fun s f =>
    match s.regime.active.floor f with
    | none => s.no "GUARD?" "NOT-FOUND" []
    | some fl =>
      let g := s.lift.guard f
      s.ok "GUARD" [fNum f, fFlag g.incident, fFlag g.host, fFlag g.watch, fOptNum (fl.landing 1), fOptNum (fl.landing 2)])

/-- `GUARDLATCH` (R101). -/
def execGuardlatch (fields : List Text) (s : State) : Host.Outcome State Fault Refusal :=
  .next (s.request "GUARDLATCH" fields fields0 fun s _ =>
    match s.lift.latch with
    | none => s.ok "GUARDLATCH" [fNone, fNone, fNone, fNone]
    | some v =>
      State.ok { s with lift := { s.lift with latch := none } } "GUARDLATCH"
        [fNum v.car, fNum v.landing, fWord v.kind.name, fTime v.time])

/-- The five reported fields, hyphens where never reported (R102). -/
def reportFields : Option CarReport → List Field
  | none => [fNone, fNone, fNone, fNone, fNone]
  | some r =>
    [match r.landing with
      | none => fWord "BETWEEN"
      | some l => fNum l,
     fWord (motionName r.motion), fWord (doorsName r.doors), fFlag r.inService, fWord (crewKeyName r.key)]

/-- A car's record as reply fields (R102). -/
def Car.fields (c : Car) (group : Nat) : List Field :=
  [fNum group, fWord (if c.linkUp then "UP" else "LOST"), fWord c.service.name] ++ reportFields c.report ++
  [fOptNum c.lastLanding, fOptNum c.target,
   match c.phase with
    | none => fNone
    | some p => fWord p.name,
   fOptTime c.phaseDeadline, listField c.calls, fFlag c.keyIgnored] ++
  match c.lastAbort with
  | none => [fNone, fNone, fNone, fNone]
  | some a => [fWord a.code.name, fOptNum a.reason, fOptNum a.landing, fTime a.time]

/-- `CAR?` (R102). -/
def execCarQuery (fields : List Text) (s : State) : Host.Outcome State Fault Refusal :=
  .next (s.request "CAR?" fields (fields1 (number 1 6)) fun s n =>
    match s.car n with
    | none => s.no "CAR?" "NOT-FOUND" []
    | some c => s.ok "CAR" (fNum n :: c.fields (s.carGroup n)))

/-- The bytes each lift line sends for the last arrival, with its car (R202). -/
def State.liftWire (s : State) : List (Nat × List Byte) := s.lift.sent.map fun f => (f.1, f.2.bytes)

/-! ### Activation (R23) -/

/-- A car in both regimes whose group changed while in CREW returns to TENANT; log 37: no CAR-SERVICE. -/
def State.regroup (s : State) (n : Nat) (c : Car) : State :=
  if c.service = .crew then
    ((s.sendFrame n .callCancelAll).setCar n (c.settled .tenant)).sendFrame n .release
  else s

/-- A car no longer present is dropped. -/
def State.dropCar (s : State) (n : Nat) (c : Car) : State :=
  let s := if c.service = .crew then (s.sendFrame n .callCancelAll).sendFrame n .release else s
  let s := (s.resolveTrouble (.car n) .liftLost).resolveTrouble (.car n) .liftOut
  { s with lift := { s.lift with cars := put1 s.lift.cars n none } }

/-- One car is re-bound from the old regime to the active one (R23). -/
def State.rebindCar (old : Regime) (s : State) (n : Nat) : State :=
  match s.car n, rec1 s.regime.active.cars n with
  | some c, some g => if rec1 old.cars n = some g then s else s.regroup n c
  | some c, none => s.dropCar n c
  | none, some _ => s.setCar n (Car.fresh s.now)
  | none, none => s

/-- The lift unit is re-bound at activation (R23), its cars in rising number (log 57). -/
def State.rebindLift (s : State) (old : Regime) : State :=
  let s := (span 1 6).foldl (State.rebindCar old) s
  let s := { s with lift := { s.lift with guards := Vector.replicate 64 Guard.clear } }
  s.guardChange

end Sys2Proof.Machine
end

