-- ==== Sys2Proof/Machine/Fire.lean ====
section
/-! DEFINITION. The incident engine (chapter 3): zones, incidents, the building demand and how it is handed out, and the operator's requests. -/

namespace Sys2Proof.Machine

/-! ### Leaving MAINTENANCE (R20, R162, R187) -/

/-- A load in RECEIVING is abandoned (R20). -/
def RegimeUnit.abandon (u : RegimeUnit) : RegimeUnit :=
  if u.load = .receiving then { u with load := .idle, staging := [], stagedLength := none } else u

/-- The mode leaves MAINTENANCE, if that is the mode: the permit is cleared, a load in RECEIVING is abandoned, MODE-CHANGED is raised
(R67, R188, R191). No release demand depends on which of NORMAL and MAINTENANCE the mode is (R108). -/
def State.leaveMaintenance (s : State) : State :=
  if s.control.mode = .maintenance then
    let s := { s with control := { s.control with mode := .normal }, regime := s.regime.abandon }
    s.clearPermit.raise .modeChanged .control [fWord "NORMAL"]
  else s

/-! ### Records and names -/

/-- A zone's record, if the zone is present. -/
def State.zone (s : State) (z : Nat) : Option Zone := rec1 s.fire.zones z

/-- The state with a present zone's record replaced. -/
def State.setZone (s : State) (z : Nat) (r : Zone) : State :=
  { s with fire := { s.fire with zones := put1 s.fire.zones z (some r) } }

/-- A zone's regime entry (R4). -/
def Regime.zone (r : Regime) (z : Nat) : Option ZoneEntry := rec1 r.zones z

/-- The keyword of a level. -/
def Level.name : Level → String
  | .alert => "ALERT" | .evac => "EVAC"

/-- The keyword of a zone signal. -/
def ZoneSignal.name : ZoneSignal → String
  | .none => "NONE" | .alert => "ALERT" | .evac => "EVAC"

/-- The keyword of a zone state. -/
def ZoneState.name : ZoneState → String
  | .normal => "NORMAL" | .confirming => "CONFIRMING" | .alarm => "ALARM" | .trouble => "TROUBLE"
  | .isolated => "ISOLATED"

/-- The keyword of a severity. -/
def Severity.name : Severity → String
  | .alert => "ALERT" | .evacuate => "EVACUATE"

/-- The keyword of an incident state. -/
def IncidentState.name : IncidentState → String
  | .unaccepted => "UNACCEPTED" | .accepted => "ACCEPTED" | .silenced => "SILENCED"

/-- An incident's origin as it is written (R68). -/
def Origin.atom : Origin → Atom
  | .zone z => .num z
  | .manual => .word "MANUAL"

/-- An open incident. -/
def State.incident (s : State) (id : Nat) : Option Incident := s.fire.incidents.find? fun i => i.id == id

/-- The state with an open incident's record replaced. -/
def State.setIncident (s : State) (i : Incident) : State :=
  { s with fire := { s.fire with incidents := s.fire.incidents.map fun x => if x.id = i.id then i else x } }

/-! ### The building demand (R70 to R76) -/

/-- The entries of an incident's member zones. -/
def Incident.rows (r : Regime) (i : Incident) : List ZoneEntry := i.members.filterMap fun m => r.zone m.zone

/-- The fire floors of an incident, in floor order (Table 3-3). -/
def Incident.fireFloors (r : Regime) (i : Incident) : List Nat :=
  (List.range 64).filter fun f => (i.rows r).any fun e => e.floors.contains f

/-- An incident's recall set (R71). -/
def Incident.recalls (r : Regime) (i : Incident) (g : Nat) : Bool :=
  (i.rows r).any (fun e => (match i.severity with
    | .alert => e.recallAlert
    | .evacuate => e.recallEvac).contains g) ||
  (i.origin == .manual && (rec1 r.groups g).isSome)

/-- Whether an incident releases a stair at a severity (R72). -/
def Incident.releases (r : Regime) (i : Incident) (sev : Severity) (st : Stair) : Bool :=
  i.severity == sev &&
  (i.origin == .manual || (i.rows r).any fun e => (match sev with
    | .alert => e.stairsAlert
    | .evacuate => e.stairsEvac).contains st)

/-- The released state of a stair (R72). -/
def releaseOf (r : Regime) (is : List Incident) (st : Stair) : StairRelease :=
  if is.any fun i => i.releases r .evacuate st then .full
  else if is.any fun i => i.releases r .alert st then .reentry
  else .none

/-- The band of an incident with fire floors: its lowest and highest logical floor (R74). -/
def Incident.band (r : Regime) (i : Incident) : Option (Nat × Nat) :=
  match least (i.fireFloors r), greatest (i.fireFloors r) with
  | some lo, some hi =>
    let below := (greatest ((i.rows r).map ZoneEntry.below)).getD 0
    let above := (greatest ((i.rows r).map ZoneEntry.above)).getD 0
    some (lo - below, min (hi + above) 63)
  | _, _ => none

/-- Whether an audio zone is one of an incident's band zones (R74). -/
def Incident.bandZone (r : Regime) (i : Incident) (a : Nat) : Bool :=
  match i.band r with
  | none => false
  | some (lo, hi) =>
    (span lo hi).any fun f =>
      match r.floor f with
      | none => false
      | some fl => fl.audioZone == some a

/-- The stronger of two claims (R74). -/
def Claim.stronger : Claim → Claim → Claim
  | .evac, _ => .evac
  | _, .evac => .evac
  | .alert, _ => .alert
  | _, c => c

/-- The fire programme of a severity. -/
def Severity.claim : Severity → Claim
  | .alert => .alert
  | .evacuate => .evac

/-- What one incident claims on a present audio zone (R74, R75). -/
def Incident.claim (r : Regime) (fallback : Bool) (i : Incident) (a : Nat) : Claim :=
  if i.state = .silenced then .none
  else
    let band := if i.bandZone r a then i.severity.claim else .none
    let rest := if i.severity = .evacuate ∧ (i.band r).isSome ∧ (i.rows r).any ZoneEntry.rest then .alert else .none
    let whole := if i.origin = .manual then i.severity.claim
      else if fallback ∧ i.severity = .evacuate then .evac else .none
    (band.stronger rest).stronger whole

/-- The demand on an audio zone: the strongest claim of all open incidents, none on an absent zone (R74, R8). -/
def claimOn (r : Regime) (fallback : Bool) (is : List Incident) (a : Nat) : Claim :=
  if r.azonePresent a then is.foldl (fun c i => c.stronger (i.claim r fallback a)) .none else .none

/-- The building demand of an incident table (R70). -/
def demandOf (r : Regime) (fallback : Bool) (is : List Incident) : Demand :=
  { recallGroups := [1, 2].filter fun g => is.any fun i => i.recalls r g
    stairA := releaseOf r is .a
    stairB := releaseOf r is .b
    stairC := releaseOf r is .c
    guardFloors := (List.range 64).filter fun f => is.any fun i => (i.fireFloors r).contains f
    claims := Vector.ofFn fun k => claimOn r fallback is (k.val + 1)
    freeze := !is.isEmpty
    tenantStop := !is.isEmpty }

/-- The building demand is recomputed, and a changed one is handed to the lift unit, the door unit, the announcement unit and the clip store,
in that order (R70). -/
def State.recomputeDemand (s : State) : State :=
  let new := demandOf s.regime.active s.control.fallback s.fire.incidents
  let old := s.fire.demand
  if new = old then s
  else
    let before := s
    let s := { s with fire := { s.fire with demand := new } }
    let s := s.liftTakes old new
    let s := s.doorTakes before old new
    let s := s.announceTakes old new
    s.storeTakesFreeze old.freeze new.freeze

/-- Control is told of the first incident, then the demand is recomputed (R67; log 14). -/
def State.incidentOpened (s : State) (wasEmpty : Bool) : State :=
  let s := if wasEmpty then s.leaveMaintenance else s
  s.recomputeDemand

/-! ### Opening, joining, severity (R57 to R61) -/

/-- A new incident joins the tail of the table with the next id (R57, R59, R66). -/
def State.openIncident (s : State) (origin : Origin) (st : IncidentState) (sev : Severity) (members : List Member)
    (acceptedAt escalation : Option Nat) : State × Nat :=
  let id := firstFree s.fire.nextId (s.fire.incidents.map Incident.id)
  let i : Incident := { id := id, origin := origin, state := st, severity := sev, members := members
                        openedAt := s.now, acceptedAt := acceptedAt, escalation := escalation }
  let s := { s with fire := { s.fire with incidents := s.fire.incidents ++ [i], nextId := nextOf id } }
  (s.raise .incidentOpened (.incident id) [f1 origin.atom, fWord sev.name], id)

/-- A SILENCED incident is re-sounded (R64). -/
def State.resound (s : State) (i : Incident) (cause : String) : State :=
  if i.state = .silenced then
    (s.setIncident { i with state := .accepted }).raise .incidentResounded (.incident i.id) [fWord cause]
  else s

/-- An ALERT incident becomes EVACUATE through a zone's level; the demand is recomputed by the caller (R61). -/
def State.raiseSeverity (s : State) (i : Incident) (z : Nat) : State :=
  if i.severity = .alert then
    let i' := { i with severity := .evacuate, escalation := none }
    let s := (s.setIncident i').raise .severityRaised (.incident i.id) [fNum z]
    s.resound i' "SEVERITY"
  else s

/-- A zone joins an open incident (R60). -/
def State.joinIncident (s : State) (i : Incident) (z : Nat) (r : Zone) (merged : Bool) : State :=
  let i' := { i with members := i.members ++ [⟨z, s.now, merged⟩] }
  let s := (s.setIncident i').setZone z { r with incident := some i.id }
  let lv := match r.level with
    | some l => fWord l.name
    | none => fNone
  let s := s.raise .zoneJoined (.incident i.id) [fNum z, lv, fFlag merged]
  let s := if r.level = some .evac then s.raiseSeverity i' z else s
  let s := match s.incident i.id with
    | some i2 => s.resound i2 "JOIN"
    | none => s
  s.recomputeDemand

/-- A zone-origin incident opens (R59). -/
def State.openForZone (s : State) (z : Nat) (r : Zone) (e : ZoneEntry) : State :=
  let sev := if r.level = some .evac then Severity.evacuate else .alert
  let esc := if sev = .alert then some (s.now + e.windowSeconds * 1000) else none
  let wasEmpty := s.fire.incidents.isEmpty
  let out := s.openIncident (.zone z) .unaccepted sev [⟨z, s.now, false⟩] none esc
  (out.1.setZone z { r with incident := some out.2 }).incidentOpened wasEmpty

/-- Whether an open incident has a member of an incident group (R58). -/
def Incident.hasGroup (r : Regime) (i : Incident) (g : Nat) : Bool := (i.rows r).any fun e => e.group == g

/-- A zone that has entered ALARM is placed in an incident (R58). -/
def State.placeZone (s : State) (z : Nat) : State :=
  match s.zone z, s.regime.active.zone z with
  | some r, some e =>
    match s.fire.incidents.find? fun i => i.hasGroup s.regime.active e.group with
    | some i => s.joinIncident i z r false
    | none =>
      if s.fire.incidents.length < 8 then s.openForZone z r e
      else
        match s.fire.incidents.getLast? with
        | some i => s.joinIncident i z r true
        | none => s
  | _, _ => s

/-! ### Zones take signals and faults (R49 to R53) -/

/-- The level of a signal. -/
def ZoneSignal.level : ZoneSignal → Option Level
  | .none => Option.none
  | .alert => some .alert
  | .evac => some .evac

/-- Where a zone goes when nothing holds it: TROUBLE or NORMAL (R50, R52, R55). -/
def Zone.rest (r : Zone) (now : Nat) : Zone :=
  { r with state := if r.lineFault then .trouble else .normal
           level := none, confirm := none, incident := none, enteredAt := now }

/-- A zone enters ALARM with a level; it is placed afterwards (R51). -/
def State.latchZone (s : State) (z : Nat) (r : Zone) (l : Level) : State :=
  let r' := { r with state := .alarm, level := some l, confirm := none, enteredAt := s.now }
  (s.setZone z r').raise .zoneAlarm (.zone z) [fWord l.name]

/-- A quiet zone with a signal starts CONFIRMING, or latches at once when its confirm time is 0 (R49). -/
def State.startZone (s : State) (z : Nat) (r : Zone) (l : Level) : State :=
  let secs := match s.regime.active.zone z with
    | some e => e.confirmSeconds
    | none => 0
  if secs = 0 then s.latchZone z r l
  else
    let r' := { r with state := .confirming, level := some l, confirm := some (s.now + secs * 1000), enteredAt := s.now }
    (s.setZone z r').raise .zoneConfirming (.zone z) [fWord l.name]

/-- A zone just latched is placed (R58). -/
def State.placeIfAlarm (s : State) (z : Nat) : State :=
  match s.zone z with
  | some r => if r.state = .alarm ∧ r.incident = none then s.placeZone z else s
  | none => s

/-- A member's level has risen to EVAC: its incident takes the rise (R52, R61). -/
def State.memberRises (s : State) (z : Nat) (r : Zone) : State :=
  match r.incident with
  | none => s
  | some id =>
    match s.incident id with
    | none => s
    | some i => if i.severity = .alert then (s.raiseSeverity i z).recomputeDemand else s

/-- A zone is handed a signal (R49, R50, R52, R54). -/
def State.zoneTakesSignal (s : State) (z : Nat) (sig : ZoneSignal) : State :=
  match s.zone z with
  | none => s
  | some r0 =>
    let r := { r0 with signal := sig }
    match r.state, sig.level with
    | .normal, some l | .trouble, some l => (s.startZone z r l).placeIfAlarm z
    | .confirming, some l => s.setZone z { r with level := some l }
    | .confirming, none => (s.setZone z (r.rest s.now)).raise .zoneCleared (.zone z) []
    | .alarm, some .evac =>
      if r.level = some .alert then
        let r' := { r with level := some .evac }
        (s.setZone z r').memberRises z r'
      else s.setZone z r
    | _, _ => s.setZone z r

/-- A zone is handed a line fault (R53). -/
def State.zoneTakesFault (s : State) (z : Nat) (fault : Bool) : State :=
  match s.zone z with
  | none => s
  | some r0 =>
    let r := { r0 with lineFault := fault }
    match r.state, fault with
    | .normal, true => s.setZone z { r with state := .trouble, enteredAt := s.now }
    | .trouble, false => s.setZone z { r with state := .normal, enteredAt := s.now }
    | _, _ => s.setZone z r

/-! ### Expiries (R51, R62) -/

/-- `CONFIRM_DEADLINE` (R51). -/
def execConfirmDeadline (z : Nat) (s : State) : Host.Outcome State Fault Refusal :=
  match s.zone z with
  | none => .next s
  | some r =>
    match r.level with
    | some l =>
      if due s.now r.confirm then .next ((s.beginArrival.latchZone z r l).placeZone z).settleHolders else .next s
    | none => .next s

/-- `ESCALATION_DEADLINE` (R62; log 19). -/
def execEscalationDeadline (id : Nat) (s : State) : Host.Outcome State Fault Refusal :=
  match s.incident id with
  | none => .next s
  | some i =>
    if due s.now i.escalation then
      let window := match i.origin with
        | .zone z =>
          match s.regime.active.zone z with
          | some e => e.windowSeconds
          | none => 0
        | .manual => 0
      let s := s.beginArrival.setIncident { i with severity := .evacuate, escalation := none }
      .next ((s.raise .escalated (.incident id) [fNum window]).recomputeDemand).settleHolders
    else .next s

/-! ### Zone requests (R54 to R56) -/

/-- `ISOLATE` once its field has been judged (R54). -/
def State.isolateZone (s : State) (z : Nat) : State :=
  match s.zone z with
  | none => s.no "ISOLATE" "NOT-FOUND" []
  | some r =>
    match r.state with
    | .alarm => s.no "ISOLATE" "STATE" []
    | .isolated => s.ok "ISOLATE" [fNum z]
    | _ =>
      let s := s.setZone z { r with state := .isolated, confirm := none, level := none, enteredAt := s.now }
      (s.raise .zoneIsolated (.zone z) []).ok "ISOLATE" [fNum z]

/-- `ISOLATE` (R54). -/
def execIsolate (fields : List Text) (s : State) : Host.Outcome State Fault Refusal :=
  .next (s.request "ISOLATE" fields (fields1 (number 1 64)) State.isolateZone)

/-- `RESTORE` once its field has been judged (R55). -/
def State.restoreZone (s : State) (z : Nat) : State :=
  match s.zone z with
  | none => s.no "RESTORE" "NOT-FOUND" []
  | some r =>
    if r.state = .isolated then
      let r' := r.rest s.now
      let s := (s.setZone z r').raise .zoneRestored (.zone z) []
      let s := match r'.signal.level with
        | some l => (s.startZone z r' l).placeIfAlarm z
        | none => s
      let s := s.settleHolders
      let name := match s.zone z with
        | some r2 => r2.state.name
        | none => ""
      s.ok "RESTORE" [fNum z, fWord name]
    else s.no "RESTORE" "STATE" []

/-- `RESTORE` (R55). -/
def execRestore (fields : List Text) (s : State) : Host.Outcome State Fault Refusal :=
  .next (s.request "RESTORE" fields (fields1 (number 1 64)) State.restoreZone)

/-- `ZONE?` (R56). -/
def execZoneQuery (fields : List Text) (s : State) : Host.Outcome State Fault Refusal :=
  .next (s.request "ZONE?" fields (fields1 (number 1 64)) fun s z =>
    match s.zone z, s.regime.active.zone z with
    | some r, some e =>
      s.ok "ZONE" [fNum z, fWord r.state.name, fWord r.signal.name, fFlag r.lineFault,
        match r.level with
          | some l => fWord l.name
          | none => fNone,
        fOptTime r.confirm, fOptNum r.incident, fTime r.enteredAt, fNum e.group, listField e.floors]
    | _, _ => s.no "ZONE?" "NOT-FOUND" [])

/-! ### Operator requests (R63 to R66) -/

/-- `ACCEPT` once its field has been judged (R63). -/
def State.acceptIncident (s : State) (id : Nat) : State :=
  match s.incident id with
  | none => s.no "ACCEPT" "NOT-FOUND" []
  | some i =>
    let answer (s : State) (i : Incident) : State := s.ok "ACCEPT" [fNum id, fWord i.state.name, fWord i.severity.name]
    if i.state = .unaccepted then
      let i' := { i with state := .accepted, acceptedAt := some s.now, escalation := none }
      let s := (s.setIncident i').raise .incidentAccepted (.incident id) []
      answer s.recomputeDemand.settleHolders i'
    else answer s i

/-- `ACCEPT` (R63). -/
def execAccept (fields : List Text) (s : State) : Host.Outcome State Fault Refusal :=
  .next (s.request "ACCEPT" fields (fields1 (number 1 255)) State.acceptIncident)

/-- `SILENCE` once its field has been judged (R64). -/
def State.silenceIncident (s : State) (id : Nat) : State :=
  match s.incident id with
  | none => s.no "SILENCE" "NOT-FOUND" []
  | some i =>
    match i.state with
    | .unaccepted => s.no "SILENCE" "STATE" []
    | .silenced => s.ok "SILENCE" [fNum id]
    | .accepted =>
      let s := (s.setIncident { i with state := .silenced }).raise .incidentSilenced (.incident id) []
      s.recomputeDemand.settleHolders.ok "SILENCE" [fNum id]

/-- `SILENCE` (R64). -/
def execSilence (fields : List Text) (s : State) : Host.Outcome State Fault Refusal :=
  .next (s.request "SILENCE" fields (fields1 (number 1 255)) State.silenceIncident)

/-- The first member, in joining order, whose signal is not NONE (R65). -/
def State.sounding (s : State) (i : Incident) : Option Nat :=
  match i.members.find? fun m =>
      match s.zone m.zone with
      | some r => r.signal != .none
      | none => false with
  | some m => some m.zone
  | none => none

/-- A member leaves ALARM as its incident closes (R65). -/
def State.releaseMember (s : State) (m : Member) : State :=
  match s.zone m.zone with
  | some r => s.setZone m.zone (r.rest s.now)
  | none => s

/-- `CLOSE` once its field has been judged (R65). -/
def State.closeIncident (s : State) (id : Nat) : State :=
  match s.incident id with
  | none => s.no "CLOSE" "NOT-FOUND" []
  | some i =>
    if i.state = .unaccepted then s.no "CLOSE" "STATE" []
    else
      match s.sounding i with
      | some z => s.no "CLOSE" "SOUNDING" [fNum z]
      | none =>
        let s := i.members.foldl State.releaseMember s
        let s := { s with fire := { s.fire with incidents := s.fire.incidents.filter fun x => x.id != id } }
        let s := s.raise .incidentClosed (.incident id) [fNum i.members.length]
        s.recomputeDemand.settleHolders.ok "CLOSE" [fNum id]

/-- `CLOSE` (R65). -/
def execClose (fields : List Text) (s : State) : Host.Outcome State Fault Refusal :=
  .next (s.request "CLOSE" fields (fields1 (number 1 255)) State.closeIncident)

/-- `MANUAL` once its field has been judged (R66). -/
def State.manualIncident (s : State) (sev : Severity) : State :=
  if s.fire.incidents.length < 8 then
    let wasEmpty := s.fire.incidents.isEmpty
    let out := s.openIncident .manual .accepted sev [] (some s.now) none
    (out.1.incidentOpened wasEmpty).settleHolders.ok "MANUAL" [fNum out.2, fWord sev.name]
  else s.no "MANUAL" "FULL" []

/-- The field of `MANUAL`. -/
def manualSeverity : Text → Option Severity := wordOf [("ALERT", .alert), ("EVAC", .evacuate)]

/-- `MANUAL` (R66). -/
def execManual (fields : List Text) (s : State) : Host.Outcome State Fault Refusal :=
  .next (s.request "MANUAL" fields (fields1 manualSeverity) State.manualIncident)

/-! ### Incident queries (R68, R69) -/

/-- `INCIDENTS` (R68). -/
def execIncidents (fields : List Text) (s : State) : Host.Outcome State Fault Refusal :=
  .next (s.request "INCIDENTS" fields fields0 fun s _ =>
    let d := s.fire.demand
    s.ok "INCIDENTS" ([fNum s.fire.incidents.length] ++
      (s.fire.incidents.map fun i =>
        [[.num i.id], [i.origin.atom], [.word i.state.name], [.word i.severity.name], [.num i.members.length]]) ++
      [listField d.recallGroups, fWord d.stairA.name, fWord d.stairB.name, fWord d.stairC.name]))

/-- The fields of `INCIDENT?`: an id, and a member position that may be left out. -/
def incidentFields (fields : List Text) : Except Nat (Nat × Nat) := do
  let id ← field 1 (number 1 255) fields
  let start ← optField 2 (number 1 64) fields
  noMore 2 fields
  return (id, start.getD 1)

/-- `INCIDENT?` (R69). -/
def execIncidentQuery (fields : List Text) (s : State) : Host.Outcome State Fault Refusal :=
  .next (s.request "INCIDENT?" fields incidentFields fun s a =>
    match s.incident a.1 with
    | none => s.no "INCIDENT?" "NOT-FOUND" []
    | some i =>
      s.ok "INCIDENT" ([fNum a.1, f1 i.origin.atom, fWord i.state.name, fWord i.severity.name, fTime i.openedAt,
        fOptTime i.acceptedAt, fOptTime i.escalation, fNum i.members.length, fSet (i.fireFloors s.regime.active)] ++
        (((i.members.drop (a.2 - 1)).take 8).map fun m =>
          [[.num m.zone], [.time m.joinedAt], [if m.merged then .word "M" else .hyphen]])))

end Sys2Proof.Machine
end

