-- ==== Sys2Proof/Machine/Sense.lean ====
section
/-! DEFINITION. The sense unit (chapter 2): bands, envelopes, cadence meters, signals, spot measurements, and the end of STARTING. -/

namespace Sys2Proof.Machine

/-! ### Records and names -/

/-- A sense channel's record. -/
def State.chan (s : State) (n : Nat) : Option Chan := at1 s.sense.chans n

/-- The state with a channel's record replaced. -/
def State.setChan (s : State) (n : Nat) (c : Chan) : State :=
  { s with sense := { s.sense with chans := put1 s.sense.chans n c } }

/-- A channel's map entry (R5). -/
def Regime.channel (r : Regime) (n : Nat) : ChanEntry := (at1 r.channels n).getD ⟨none, none, none, 5⟩

/-- Whether a channel is used. -/
def Regime.used (r : Regime) (n : Nat) : Bool := (r.channel n).zone.isSome

/-- The keyword of a line class. -/
def LineClass.name : LineClass → String
  | .shorted => "SHORT" | .normal => "NORMAL" | .opened => "OPEN"

/-- The keyword of a channel signal. -/
def Signal.name : Signal → String
  | .none => "NONE" | .alert => "ALERT" | .evac => "EVAC" | .evacUnmetered => "EVAC-UNMETERED"
  | .evacUnknown => "EVAC-UNKNOWN"

/-! ### Zone signals and line faults (R45, R46) -/

/-- What a channel signal counts as for its zone (R46). -/
def Signal.counts : Signal → ZoneSignal
  | .none => .none
  | .alert => .alert
  | _ => .evac

/-- The stronger of two zone signals (R46). -/
def ZoneSignal.stronger : ZoneSignal → ZoneSignal → ZoneSignal
  | .evac, _ => .evac
  | _, .evac => .evac
  | .alert, _ => .alert
  | _, z => z

/-- The used channels that name a zone. -/
def Regime.channelsOf (r : Regime) (z : Nat) : List Nat :=
  (span 1 24).filter fun n => (r.channel n).zone == some z

/-- A zone's signal: the strongest of its channels (R46). -/
def State.zoneSignal (s : State) (z : Nat) : ZoneSignal :=
  (s.regime.active.channelsOf z).foldl (fun best n =>
    match s.chan n with
    | some c => best.stronger c.signal.counts
    | none => best) .none

/-- Whether a channel has a line fault (R28). -/
def State.lineFault (s : State) (n : Nat) : Bool :=
  s.event.stands (.chan n) .channelOpen || s.event.stands (.chan n) .channelShort

/-- A zone's line fault: that of any of its channels (R45). -/
def State.zoneFault (s : State) (z : Nat) : Bool := (s.regime.active.channelsOf z).any s.lineFault

/-- A changed zone signal is handed to the channel's zone (R46). -/
def State.handSignal (s : State) (n : Nat) : State :=
  match (s.regime.active.channel n).zone with
  | none => s
  | some z =>
    match s.zone z with
    | none => s
    | some r => if r.signal = s.zoneSignal z then s else s.zoneTakesSignal z (s.zoneSignal z)

/-- A changed zone line fault is handed to the channel's zone (R45). -/
def State.handFault (s : State) (n : Nat) : State :=
  match (s.regime.active.channel n).zone with
  | none => s
  | some z =>
    match s.zone z with
    | none => s
    | some r => if r.lineFault = s.zoneFault z then s else s.zoneTakesFault z (s.zoneFault z)

/-! ### Signals (R39, R40) -/

/-- Whether a period lies in a window (R5). -/
def inWindow (w : Window) (p : Nat) : Bool :=
  match w with
  | none => false
  | some (a, b) => inRange a b p

/-- The signal of a locked period, the evac window tested first (R39). -/
def ChanEntry.classify (e : ChanEntry) (p : Nat) : Signal :=
  if inWindow e.evac p then .evac else if inWindow e.alert p then .alert else .evacUnknown

/-- CADENCE-UNKNOWN follows a channel's signal (R40). -/
def State.unknownTrouble (s : State) (n : Nat) (sig : Signal) (period : Nat) : State :=
  match sig with
  | .evacUnknown => s.enterTrouble (.chan n) .cadenceUnknown (some [.num period])
  | _ => s.resolveTrouble (.chan n) .cadenceUnknown

/-- A used channel's signal takes a value: its trouble follows and its zone is handed any change (R40, R46), in that order (R32 at envelope UNDRIVEN;
at a lock the spec leaves the order open: log 59). -/
def State.setSignal (s : State) (n : Nat) (c : Chan) (sig : Signal) (period : Nat) : State :=
  ((s.setChan n { c with signal := sig }).unknownTrouble n sig period).handSignal n

/-! ### Cadence meters (R30, R31, R33) -/

/-- The meter a channel holds. -/
def Chan.meter (c : Chan) : Option Nat :=
  match c.binding with
  | .bound m _ => some m
  | _ => none

/-- Whether a channel holds a meter with use CADENCE. -/
def Chan.metered (c : Chan) : Bool :=
  match c.binding with
  | .bound _ .cadence => true
  | _ => false

/-- Whether a channel holds a meter with use SPOT. -/
def Chan.spotting (c : Chan) : Bool :=
  match c.binding with
  | .bound _ .spot => true
  | _ => false

/-- The lowest-numbered FREE meter (R30). -/
def Sense.freeMeter (u : Sense) : Option Nat :=
  (span 1 4).find? fun m => !u.chans.toList.any fun c => c.meter == some m

/-- A channel record at the binding of a CADENCE meter: an empty run, no edge seen, and the steady timing if drive is present (R30, R33, R36). -/
def Chan.bindMeter (c : Chan) (m now : Nat) (firstEdge : Bool) : Chan :=
  { c with
    binding := .bound m .cadence
    starve := none
    run := []
    lastRise := if firstEdge then some now else none
    steadyFrom := if c.drive then some now else none }

/-- A meter that becomes FREE is handed to the head of the meter-wait queue (R33). -/
def State.handOn (s : State) (m : Nat) : State :=
  match s.sense.queue with
  | [] => s
  | h :: q =>
    let s := { s with sense := { s.sense with queue := q } }
    match s.chan h with
    | none => s
    | some c => (s.setChan h (c.bindMeter m s.now false)).resolveTrouble (.chan h) .meterStarved

/-- A used DRIVEN channel takes a meter or joins the meter-wait queue (R30). The record's signal is the caller's to hand on. -/
def State.takeMeter (s : State) (n : Nat) (c : Chan) (firstEdge : Bool) : State :=
  let c := { c with lock := .unlocked, signal := .evacUnmetered }
  match s.sense.freeMeter with
  | some m => s.setChan n (c.bindMeter m s.now firstEdge)
  | none =>
    let s := s.setChan n { c with binding := .waiting, starve := some (s.now + 10000), run := [], lastRise := none
                                  steadyFrom := none }
    { s with sense := { s.sense with queue := s.sense.queue ++ [n] } }

/-- A channel gives up its CADENCE meter, which is handed on, or its place in the queue (R31, R32). -/
def State.releaseMeter (s : State) (n : Nat) (c : Chan) : State :=
  let c' := { c with binding := .unbound, starve := none, run := [], lastRise := none, steadyFrom := none }
  match c.binding with
  | .bound m .cadence => (s.setChan n c').handOn m
  | .waiting =>
    let s := { s with sense := { s.sense with queue := s.sense.queue.filter fun x => x != n } }
    (s.setChan n c').resolveTrouble (.chan n) .meterStarved
  | _ => s

/-! ### Measuring (R34 to R38) -/

/-- A measured time as it is recorded: 1 to 65 000 ms, else a free value in that range (Table 2-2; log 10). -/
def State.recorded (s : State) (ms : Nat) : State × Nat :=
  if inRange 1 65000 ms then (s, ms)
  else ({ s with freeCount := s.freeCount + 1 }, (Config.measureOutOfRange s.freeCount).toNat % 65000 + 1)

/-- Whether a period lies within a tolerance of a mean (R35). -/
def within (t m p : Nat) : Bool := decide ((max m p - min m p) * 100 ≤ t * m)

/-- A period is in range (R34). -/
def periodInRange (p : Nat) : Bool := inRange 50 5000 p

/-- The run with a period appended, at most three kept (R35). -/
def pushRun (run : List Nat) (p : Nat) : List Nat :=
  let r := run ++ [p]
  r.drop (r.length - 3)

/-- The mean of three periods to the nearest millisecond, halves rounded up (R35). -/
def meanOf (run : List Nat) : Nat := (2 * run.sum + 3) / 6

/-- A run that locks: three periods, each within tolerance of their mean (R35). -/
def runLocks (t : Nat) (run : List Nat) : Bool :=
  run.length == 3 && run.all (within t (meanOf run))

/-- A measured period of an UNLOCKED meter (R35). -/
def State.unlockedPeriod (s : State) (n : Nat) (c : Chan) (p : Nat) : State :=
  let e := s.regime.active.channel n
  if periodInRange p then
    let run := pushRun c.run p
    if runLocks e.tolerance run then
      let m := meanOf run
      s.setSignal n { c with run := [], lock := .locked m } (e.classify m) m
    else s.setChan n { c with run := run }
  else s.setChan n { c with run := [] }

/-- A measured period of a LOCKED meter; CADENCE-CHANGED carries the period itself (R37). -/
def State.lockedPeriod (s : State) (n : Nat) (c : Chan) (locked p : Nat) : State :=
  let e := s.regime.active.channel n
  if periodInRange p && within e.tolerance locked p then s.setChan n c
  else
    let c' := { c with changed := true, lock := .unlocked, run := if periodInRange p then [p] else [] }
    (s.setChan n c').raise .cadenceChanged (.chan n) [fNum locked, fNum p, fOptNum c.lastOnTime]

/-- A rising edge seen by a CADENCE meter (R34, R36). While the lock is STEADY it measures nothing. -/
def State.meterRise (s : State) (n : Nat) (c : Chan) : State :=
  match c.lastRise, c.lock with
  | none, _ | some _, .steady => s.setChan n { c with lastRise := some s.now, steadyFrom := some s.now }
  | some t, .unlocked =>
    let out := s.recorded (s.now - t)
    let c := { c with lastRise := some s.now, steadyFrom := some s.now, lastPeriod := some out.2 }
    out.1.unlockedPeriod n c (s.now - t)
  | some t, .locked m =>
    let out := s.recorded (s.now - t)
    let c := { c with lastRise := some s.now, steadyFrom := some s.now, lastPeriod := some out.2 }
    out.1.lockedPeriod n c m (s.now - t)

/-- A falling edge seen by a CADENCE meter (R34, R36, R38). -/
def State.meterFall (s : State) (n : Nat) (c : Chan) : State :=
  let out := match c.lastRise with
    | some t => let o := s.recorded (s.now - t); (o.1, some o.2)
    | none => (s, c.lastOnTime)
  let c := { c with lastOnTime := out.2, steadyFrom := none }
  match c.lock with
  | .steady => out.1.setChan n { c with lock := .unlocked, run := [], lastRise := none }
  | _ => out.1.setChan n c

/-! ### Arrivals of the front ends -/

/-- The line class of a resistance (R27). -/
def classOf (ohms : Nat) : LineClass :=
  if ohms < 500 then .shorted else if ohms ≤ 25000 then .normal else .opened

/-- `LINE_CLASS_CHANGE`: a reading of an UNDRIVEN channel starts, replaces or removes the band candidate (R27). -/
def execLineClassChange (n ohms : Nat) (s : State) : Host.Outcome State Fault Refusal :=
  match s.chan n with
  | none => .next s
  | some c =>
    if c.driven then .next s
    else
      let cl := classOf ohms
      let same := match c.candidate with
        | some (k, _) => k == cl
        | none => false
      let cand := if c.band = some cl then none else if same then c.candidate else some (cl, s.now)
      .next (s.beginArrival.setChan n { c with candidate := cand })

/-- The line troubles of a used channel that adopts a band (R28). -/
def State.lineTroubles (s : State) (n : Nat) (cl : LineClass) : State :=
  match cl with
  | .normal => (s.resolveTrouble (.chan n) .channelShort).resolveTrouble (.chan n) .channelOpen
  | .opened => (s.resolveTrouble (.chan n) .channelShort).enterTrouble (.chan n) .channelOpen none
  | .shorted => (s.resolveTrouble (.chan n) .channelOpen).enterTrouble (.chan n) .channelShort none

/-- How many used channels are still UNSETTLED (R190, R193). -/
def State.unsettled (s : State) : Nat :=
  ((span 1 24).filter fun n =>
    s.regime.active.used n &&
    match s.chan n with
    | some c => c.band.isNone
    | none => false).length

/-- The test that ends STARTING (R190): the mode becomes NORMAL, STARTED is raised, every release demand is re-evaluated. -/
def State.startingTest (s : State) : State :=
  if s.control.mode = .starting ∧ s.control.settle = none ∧ s.unsettled = 0 then
    let before := s
    let s := { s with control := { s.control with mode := .normal } }
    let s := s.raise .started .control [fNum s.regime.active.number, fFlag s.control.fallback]
    s.reevaluate before
  else s

/-- `START_UP_SETTLE_DEADLINE` (R190). -/
def execStartUpSettleDeadline (s : State) : Host.Outcome State Fault Refusal :=
  if due s.now s.control.settle then
    let s := s.beginArrival
    .next (State.startingTest { s with control := { s.control with settle := none } })
  else .next s

/-- `BAND_ADOPTION`: a candidate read for 200 ms becomes the band. Its zone is handed the line fault once, after the channel's
troubles: a direct change between OPEN and SHORT changes nothing there (R27, R28, R45, R190; log 47). -/
def execBandAdoption (n : Nat) (s : State) : Host.Outcome State Fault Refusal :=
  match s.chan n with
  | none => .next s
  | some c =>
    match c.candidate with
    | some (cl, t) =>
      if t + 200 ≤ s.now then
        let s := s.beginArrival.setChan n { c with band := some cl, candidate := none }
        if s.regime.active.used n then .next ((s.lineTroubles n cl).handFault n).startingTest.settleHolders
        else .next s
      else .next s
    | none => .next s

/-- SPOT-DONE (R43, R44). -/
def State.raiseSpotDone (s : State) (n : Nat) (r : SpotResult) : State :=
  match r.ohms with
  | some o => s.raise .spotDone (.chan n) [fWord "DONE", fNum o, fFlag false]
  | none => s.raise .spotDone (.chan n) [fWord "ABORTED", fNone, fFlag true]

/-- A channel becomes DRIVEN (R29, R30, R44); its record already says so. -/
def State.becomeDriven (s : State) (n : Nat) (c : Chan) : State :=
  let used := s.regime.active.used n
  match c.binding with
  | .bound m .spot =>
    let c := { c with spot := some ⟨none⟩, spotDeadline := none }
    let s := s.raiseSpotDone n ⟨none⟩
    if used then s.setSignal n { c.bindMeter m s.now true with lock := .unlocked } .evacUnmetered 0
    else (s.setChan n { c with binding := .unbound }).handOn m
  | _ => if used then (s.takeMeter n c true).handSignal n else s.setChan n c

/-- `RISING_EDGE` (R29, R30, R34, R44). -/
def execRisingEdge (n : Nat) (s : State) : Host.Outcome State Fault Refusal :=
  match s.chan n with
  | none => .next s
  | some c =>
    if c.drive then .next s
    else
      let s := s.beginArrival
      let c' := { c with drive := true, holdFrom := none }
      if c.driven then
        .next (if c.metered then (s.meterRise n c').settleHolders else s.setChan n c')
      else .next (s.becomeDriven n { c' with driven := true, candidate := none }).settleHolders

/-- `FALLING_EDGE` (R29, R34, R36, R38). -/
def execFallingEdge (n : Nat) (s : State) : Host.Outcome State Fault Refusal :=
  match s.chan n with
  | none => .next s
  | some c =>
    if c.drive then
      let s := s.beginArrival
      let c' := { c with drive := false, holdFrom := some s.now }
      .next (if c.metered then s.meterFall n c' else s.setChan n c')
    else .next s

/-- A used channel becomes UNDRIVEN (R32). -/
def State.becomeUndriven (s : State) (n : Nat) (c : Chan) : State :=
  let s := (s.setChan n c).releaseMeter n c
  match s.chan n with
  | none => s
  | some c => s.setSignal n { c with lock := .unlocked } .none 0

/-- Whether a time kept by its start has run for a duration. -/
def ran (now : Nat) (start : Option Nat) (ms : Nat) : Bool := due now (start.map (· + ms))

/-- `HOLD_DEADLINE` (R29, R32; log 24). -/
def execHoldDeadline (n : Nat) (s : State) : Host.Outcome State Fault Refusal :=
  match s.chan n with
  | none => .next s
  | some c =>
    if c.driven && ran s.now c.holdFrom s.regime.active.options.holdMs then
      let s := s.beginArrival
      let c' := { c with driven := false, holdFrom := none }
      if s.regime.active.used n then .next (s.becomeUndriven n c').settleHolders
      else .next (s.setChan n { c' with lock := .unlocked })
    else .next s

/-- `STARVE_DEADLINE` (R31). -/
def execStarveDeadline (n : Nat) (s : State) : Host.Outcome State Fault Refusal :=
  match s.chan n with
  | none => .next s
  | some c =>
    if due s.now c.starve then
      .next ((s.beginArrival.setChan n { c with starve := none }).enterTrouble (.chan n) .meterStarved none)
    else .next s

/-- `STEADY_THRESHOLD`: the signal becomes EVAC, and then the change of a LOCKED meter is reported, in the order R36 names them. -/
def execSteadyThreshold (n : Nat) (s : State) : Host.Outcome State Fault Refusal :=
  match s.chan n with
  | none => .next s
  | some c =>
    if c.metered && ran s.now c.steadyFrom s.regime.active.options.steadyMs then
      let s := s.beginArrival
      let c' := { c with run := [], lock := .steady, steadyFrom := none }
      match c.lock with
      | .locked m =>
        let c' := { c' with changed := true }
        let s := s.setSignal n c' .evac 0
        .next (s.raise .cadenceChanged (.chan n) [fNum m, fWord "STEADY", fOptNum c.lastOnTime]).settleHolders
      | _ => .next (s.setSignal n c' .evac 0).settleHolders
    else .next s

/-- The mean of the readings of a spot measurement, each above 65 000 ohms counting as 65 000 (R43). A mean that is no whole number is
rounded as the free value says (log 54); with no reading given the value is free (log 17). -/
def State.spotMean (s : State) (readings : List Nat) : State × Nat :=
  let used := { s with freeCount := s.freeCount + 1 }
  if readings.isEmpty then (used, (Config.spotReading s.freeCount).toNat % 65001)
  else
    let total := (readings.map fun r => min r 65000).sum
    let q := total / readings.length
    if total % readings.length = 0 then (s, q) else (used, q + (Config.meanRoundsUp s.freeCount).toNat)

/-- `SPOT_DEADLINE`: `readings` are the line resistances read over the 2 s (R43). -/
def execSpotDeadline (n : Nat) (readings : List Nat) (s : State) : Host.Outcome State Fault Refusal :=
  match s.chan n with
  | none => .next s
  | some c =>
    match c.binding with
    | .bound m .spot =>
      if due s.now c.spotDeadline then
        let mean := s.beginArrival.spotMean readings
        let s := mean.1.setChan n { c with spot := some ⟨some mean.2⟩, spotDeadline := none, binding := .unbound }
        .next ((s.handOn m).raiseSpotDone n ⟨some mean.2⟩)
      else .next s
    | _ => .next s

/-! ### Requests (R41, R42, R47) -/

/-- `CHANCLR` (R41). -/
def execChanclr (fields : List Text) (s : State) : Host.Outcome State Fault Refusal :=
  .next (s.request "CHANCLR" fields (fields1 (number 1 24)) fun s n =>
    match s.chan n with
    | none => s
    | some c => (s.setChan n { c with changed := false }).ok "CHANCLR" [fNum n])

/-- `SPOT` (R42). -/
def execSpot (fields : List Text) (s : State) : Host.Outcome State Fault Refusal :=
  .next (s.request "SPOT" fields (fields1 (number 1 24)) fun s n =>
    match s.chan n with
    | none => s
    | some c =>
      if c.driven || c.spotting then s.no "SPOT" "STATE" []
      else
        match s.sense.freeMeter with
        | none => s.no "SPOT" "NO-METER" []
        | some m =>
          (s.setChan n { c with binding := .bound m .spot, spotDeadline := some (s.now + 2000) }).ok "SPOT" [fNum n, fNum m])

/-- The binding and use of a channel as reply fields (R47). -/
def Binding.fields : Binding → List Field
  | .unbound => [fNone, fNone]
  | .waiting => [fWord "WAITING", fNone]
  | .bound m .cadence => [fNum m, fWord "CADENCE"]
  | .bound m .spot => [fNum m, fWord "SPOT"]

/-- The lock and locked period of a channel as reply fields (R47). -/
def Lock.fields : Lock → List Field
  | .unlocked => [fWord "UNLOCKED", fNone]
  | .locked p => [fWord "LOCKED", fNum p]
  | .steady => [fWord "STEADY", fNone]

/-- A spot result as reply fields (R47). -/
def spotFields : Option SpotResult → List Field
  | none => [fNone, fNone, fNone]
  | some ⟨some o⟩ => [fWord "DONE", fNum o, fFlag false]
  | some ⟨none⟩ => [fWord "ABORTED", fNone, fFlag true]

/-- The place of a channel in the meter-wait queue, counted from the head as 1. -/
def Sense.place (u : Sense) (n : Nat) : Option Nat :=
  match u.queue.findIdx? fun x => x == n with
  | none => none
  | some i => some (i + 1)

/-- `CHAN?` (R47). -/
def execChanQuery (fields : List Text) (s : State) : Host.Outcome State Fault Refusal :=
  .next (s.request "CHAN?" fields (fields1 (number 1 24)) fun s n =>
    match s.chan n with
    | none => s
    | some c =>
      s.ok "CHAN" ([fNum n, fFlag (s.regime.active.used n), fOptNum (s.regime.active.channel n).zone,
        match c.band with
          | none => fWord "UNSETTLED"
          | some b => fWord b.name,
        match c.candidate with
          | none => fNone
          | some k => fWord k.1.name,
        fWord (if c.driven then "DRIVEN" else "UNDRIVEN")] ++ c.binding.fields ++ [fOptNum (s.sense.place n)] ++
        c.lock.fields ++ [fOptNum c.lastPeriod, fOptNum c.lastOnTime, fWord c.signal.name, fFlag c.changed] ++
        spotFields c.spot))

/-! ### Activation (R22) -/

/-- A zone record rebuilt for the new regime (R22): a zone still present stays ISOLATED; any other starts NORMAL. -/
def rebuiltZone (now : Nat) (old : Option Zone) : Zone :=
  match old with
  | some r => if r.state = .isolated then { Zone.cold with state := .isolated, enteredAt := r.enteredAt }
              else { Zone.cold with enteredAt := now }
  | none => { Zone.cold with enteredAt := now }

/-- The zone table rebuilt for the active regime (R22). -/
def State.rebuildZones (s : State) : State :=
  { s with fire := { s.fire with
      zones := Vector.ofFn fun k : Fin 64 =>
        (s.regime.active.zone (k.val + 1)).map fun _ => rebuiltZone s.now (s.zone (k.val + 1)) } }

/-- A channel becomes unused: it keeps a running spot. Its troubles are resolved in the order METER-STARVED, CHANNEL-SHORT, CHANNEL-OPEN,
CADENCE-UNKNOWN (R22; log 46). -/
def State.channelUnused (old : Regime) (s : State) (n : Nat) : State :=
  if old.used n && !s.regime.active.used n then
    match s.chan n with
    | none => s
    | some c =>
      let s := s.releaseMeter n c
      let s := match s.chan n with
        | none => s
        | some c => s.setChan n { c with signal := .none }
      ((s.resolveTrouble (.chan n) .channelShort).resolveTrouble (.chan n) .channelOpen).resolveTrouble (.chan n) .cadenceUnknown
  else s

/-- A channel becomes used (R22, R28). -/
def State.channelUsed (old : Regime) (s : State) (n : Nat) : State :=
  if !old.used n && s.regime.active.used n then
    match s.chan n with
    | none => s
    | some c =>
      let s := match c.band with
        | some .opened => s.enterTrouble (.chan n) .channelOpen none
        | some .shorted => s.enterTrouble (.chan n) .channelShort none
        | _ => s
      if c.driven then s.takeMeter n c false else s
  else s

/-- A used channel with a LOCKED or STEADY meter is classified afresh (R22, R39, R40). -/
def State.reclassify (s : State) (n : Nat) : State :=
  match s.chan n with
  | none => s
  | some c =>
    if s.regime.active.used n && c.metered then
      let put (sig : Signal) (p : Nat) : State := (s.setChan n { c with signal := sig }).unknownTrouble n sig p
      match c.lock with
      | .locked p => put ((s.regime.active.channel n).classify p) p
      | .steady => put .evac 0
      | .unlocked => s
    else s

/-- A rebuilt zone takes its line fault and signal (R22); one that latches is placed later (R21). -/
def State.zoneTakesUp (s : State) (z : Nat) : State :=
  match s.zone z with
  | none => s
  | some r0 =>
    let r := { r0 with signal := s.zoneSignal z, lineFault := s.zoneFault z }
    match r.state with
    | .normal =>
      let r' := { r with state := if r.lineFault then .trouble else .normal }
      match r'.signal.level with
      | some l => s.startZone z r' l
      | none => s.setZone z r'
    | _ => s.setZone z r

/-- Zones and channels are rebuilt at activation (R22). Channels are classified afresh, and then zones take their signals, in rising number
(log 56). -/
def State.rebindSense (s : State) (old : Regime) : State :=
  let s := s.rebuildZones
  let s := (span 1 24).foldl (State.channelUnused old) s
  let s := (span 1 24).foldl (State.channelUsed old) s
  let s := (span 1 24).foldl State.reclassify s
  (span 1 64).foldl State.zoneTakesUp s

end Sys2Proof.Machine
end

