-- ==== Sys2Proof/Machine/Control.lean ====
section
/-! DEFINITION. Control and the event unit: cold start, modes, line restart, events, troubles, identity (chapter 9). -/

namespace Sys2Proof.Machine

/-! ### Cold start (R13, R157, R160, R189) -/

/-- The nonvolatile clip store a cold start finds: the block of a write that was in flight is UNKNOWN (R157, 9.6; log 9). -/
def ClipStore.afterPowerLoss (c : ClipStore) : ClipStore :=
  match c.engine with
  | .writing (.data bank block _ _) => c.makeUnknown bank block
  | .writing (.header e) => c.makeUnknown e.bank e.first
  | _ => c

/-- The clip store at cold start: what is nonvolatile, and the directory rebuilt (R157, R160, Table 8-1). -/
def ClipStore.cold (c : ClipStore) : ClipStore :=
  let c := c.afterPowerLoss
  ClipStore.rebuild { c with directory := [], engine := .ready, permit := false, lastError := .none, reads := [] }

/-- The part after a cold start, before the result of the regime load is reported (R189). -/
def State.coldUnits (s : State) (result : ColdResult) (r : Regime) (fallback : Bool) : State :=
  { line := LineIf.cold
    control := { mode := .starting, fallback := fallback, uptime := 0, settle := some 10000 }
    regime := { active := r, area := s.regime.area, torn := s.regime.torn, staging := [], load := .idle
                stagedLength := none, writtenNumber := none, writeStarted := none, coldResult := result }
    sense := Sense.cold
    fire := FireUnit.cold r
    lift := LiftUnit.cold r
    door := DoorUnit.cold r
    ann := AnnUnit.cold
    live := LivePage.cold
    store := s.store.cold
    event := { queue := [], gap := false, troubles := [] }
    pending := s.pending
    freeCount := if s.regime.torn then s.freeCount + 1 else s.freeCount }

/-- `COLD_START` (R189, R13). What an HJ-608 holds is that of its own power-up (R104; log 42). -/
def execColdStart (s : State) : Host.Outcome State Fault Refusal :=
  match loadArea s.regime.area s.regime.torn (Config.tornReadsBlank s.freeCount) with
  | (result, some r) => .next (s.coldUnits result r false)
  | (result, none) =>
    .next ((s.coldUnits result fallbackRegime true).enterTrouble .regime .regimeFallback (some result.detail))

/-! ### Events and troubles (R181, R186) -/

/-- One event as an EV line (R201, Table 10-4). -/
def Event.line (e : Event) (gap : Bool) : SentLine :=
  [fWord "EV", fNum e.cls.num, fWord e.kind.name, fTime e.time, e.source.field, if gap then fWord "G" else fNone] ++ e.fields

/-- The EV lines of delivered records, the first with the gap flag (R181). -/
def deliveredLines (gap : Bool) : List Event → List SentLine
  | [] => []
  | e :: es => e.line gap :: es.map fun x => x.line false

/-- `EVENTS` once its field has been judged (R181). -/
def State.deliver (s : State) (n : Nat) : State :=
  let out := s.event.queue.take n
  let lines := deliveredLines s.event.gap out
  let s := { s with event := { s.event with
    queue := s.event.queue.drop n, gap := if out.isEmpty then s.event.gap else false } }
  s.reply lines [.word "OK", .word "EVENTS"] [fNum out.length]

/-- `EVENTS` (R181). -/
def execEvents (fields : List Text) (s : State) : Host.Outcome State Fault Refusal :=
  .next (s.request "EVENTS" fields (fields1 (number 1 8)) State.deliver)

/-- A trouble list entry as `TROUBLES` reports it (R186). -/
def TroubleEntry.field (e : TroubleEntry) : Field :=
  match e.shown with
  | none => e.source.field
  | some k =>
    e.source.field ++ [[.word k.kind.name], [.num k.cls.num], [.time k.time], [.num e.kinds.length]] ++
    match k.detail with
    | none => []
    | some d => [d]

/-- `TROUBLES` (R186). -/
def execTroubles (fields : List Text) (s : State) : Host.Outcome State Fault Refusal :=
  .next (s.request "TROUBLES" fields (fieldsOpt (number 1 192)) fun s start =>
    let ts := s.event.troubles
    s.ok "TROUBLES" (fNum ts.length :: ((ts.drop (start.getD 1 - 1)).take 16).map TroubleEntry.field))

/-! ### Modes (R188) -/

/-- The keyword of a mode. -/
def Mode.name : Mode → String
  | .starting => "STARTING" | .normal => "NORMAL" | .maintenance => "MAINTENANCE"

/-- `MAINT ON` (R188). -/
def execMaintOn (fields : List Text) (s : State) : Host.Outcome State Fault Refusal :=
  .next (s.request "MAINT ON" fields fields0 fun s _ =>
    if s.incidentOpen then s.no "MAINT ON" "INCIDENT" []
    else
      match s.control.mode with
      | .starting => s.no "MAINT ON" "STATE" []
      | .normal =>
        let s := { s with control := { s.control with mode := .maintenance } }
        (s.raise .modeChanged .control [fWord "MAINTENANCE"]).ok "MAINT ON" []
      | .maintenance => s.ok "MAINT ON" [])

/-- `MAINT OFF` (R188). -/
def execMaintOff (fields : List Text) (s : State) : Host.Outcome State Fault Refusal :=
  .next (s.request "MAINT OFF" fields fields0 fun s _ =>
    match s.control.mode with
    | .starting => s.no "MAINT OFF" "STATE" []
    | _ => s.leaveMaintenance.ok "MAINT OFF" [])

/-! ### Line restart (R191) -/

/-- The reply to `RESTART` is sent, then the input buffer is emptied and the overrun mark cleared (R191 step 1, R197, R204; log 18). -/
def State.restartLine (s : State) : State :=
  let s := s.ok "RESTART" []
  { s with line := { s.line with
      buffer := [], overrun := false, reply := none
      sent := match s.line.reply with
        | none => []
        | some r => [r.line] } }

/-- `RESTART` once its fields have been judged: its reply, then the six steps (R191). -/
def State.restart (s : State) : State :=
  let s := s.restartLine
  let s := { s with event := { s.event with queue := [], gap := true }, lift := { s.lift with latch := none } }
  (((s.endAllTenants "CANCELLED").liveOff).leaveMaintenance).settleHolders

/-- `RESTART` (R191). -/
def execRestart (fields : List Text) (s : State) : Host.Outcome State Fault Refusal :=
  .next (s.request "RESTART" fields fields0 fun s _ => s.restart)

/-! ### Identity and mode queries (R192, R193) -/

/-- `HELLO` (R192). -/
def execHello (fields : List Text) (s : State) : Host.Outcome State Fault Refusal :=
  .next (s.request "HELLO" fields fields0 fun s _ =>
    s.ok "HELLO" ([fWord "HASJOR", fWord "HJ-640", fNum 1, fNum s.regime.active.number, fFlag s.control.fallback,
      fWord s.control.mode.name] ++ s.regime.coldResult.fields))

/-- `MODE?` (R193). -/
def execModeQuery (fields : List Text) (s : State) : Host.Outcome State Fault Refusal :=
  .next (s.request "MODE?" fields fields0 fun s _ =>
    let starting := s.control.mode == .starting
    s.ok "MODE" [fWord s.control.mode.name, fFlag s.control.fallback, fTime s.now,
      if starting then fFlag s.control.settle.isNone else fNone,
      if starting then fNum s.unsettled else fNone,
      fNum s.fire.incidents.length, fNum s.event.queue.length, fFlag s.event.gap, fNum s.event.troubles.length])

end Sys2Proof.Machine
end

