-- ==== Sys2Proof/Machine/Loading.lean ====
section
/-! DEFINITION. The regime unit's requests, the end of a regime write, and activation (1.9 to 1.11). -/

namespace Sys2Proof.Machine

/-! ### The gates (R15) -/

/-- A regime request past the judging of its fields: an open incident, the mode, the load state (R15). -/
def State.regimeGates (s : State) (kw : String) (admits : LoadState → Bool) (act : State → State) : State :=
  if s.incidentOpen then s.no kw "INCIDENT" []
  else if s.control.mode != .maintenance then s.no kw "NOT-MAINTENANCE" []
  else if !admits s.regime.load then s.no kw "STATE" []
  else act s

/-- The load states that admit `REGIME BEGIN` (Table 1-12). -/
def admitsBegin : LoadState → Bool
  | .writing => false
  | _ => true

/-- The state with the regime unit replaced. -/
def State.setRegime (s : State) (u : RegimeUnit) : State := { s with regime := u }

/-- The regime unit with no load: the staging area empty (Table 1-11). -/
def RegimeUnit.endLoad (u : RegimeUnit) (l : LoadState) : RegimeUnit :=
  { u with load := l, staging := [], stagedLength := none, writtenNumber := none, writeStarted := none }

/-! ### BEGIN, DATA, END (R16 to R18) -/

/-- `REGIME BEGIN` (R16). -/
def execRegimeBegin (fields : List Text) (s : State) : Host.Outcome State Fault Refusal :=
  .next (s.request "REGIME BEGIN" fields (fields1 (number 88 16384)) fun s n =>
    s.regimeGates "REGIME BEGIN" admitsBegin fun s =>
      (s.setRegime { s.regime.endLoad .receiving with stagedLength := some n }).ok "REGIME BEGIN" [fNum n])

/-- Bytes are staged at an offset (R17). -/
def State.stage (s : State) (offset : Nat) (bytes : List Byte) : State :=
  (s.setRegime { s.regime with staging := Mem.writeAll stagedByte s.regime.staging offset bytes }).ok "REGIME DATA"
    [fNum offset, fNum bytes.length]

/-- Whether bytes at an offset run beyond the staged length, where one is present: in RECEIVING and WRITING (R17, R25). -/
def RegimeUnit.beyondStaged (u : RegimeUnit) (offset count : Nat) : Bool :=
  match u.stagedLength with
  | none => false
  | some len => decide (len < offset + count)

/-- The fields of `REGIME DATA`: a record beyond the staged length fails field 1 once field 2's form is good, before a third field is looked
at (R17, R199; log 34). -/
def dataFields (u : RegimeUnit) (fields : List Text) : Except Nat (Nat × List Byte) := do
  let offset ← field 1 decimal fields
  let bytes ← field 2 (hexData 1 128) fields
  if u.beyondStaged offset bytes.length then .error 1
  noMore 2 fields
  return (offset, bytes)

/-- `REGIME DATA` (R17). -/
def execRegimeData (fields : List Text) (s : State) : Host.Outcome State Fault Refusal :=
  .next (s.request "REGIME DATA" fields (dataFields s.regime) fun s a =>
    s.regimeGates "REGIME DATA" (· == .receiving) fun s => s.stage a.1 a.2)

/-- The staged image (R18). -/
def RegimeUnit.image (u : RegimeUnit) : List Byte := u.staging.slice stagedByte 0 (u.stagedLength.getD 0)

/-- `REGIME END` past its gates (R18). -/
def State.closeLoad (s : State) (crc : Crc32) : State :=
  let img := s.regime.image
  let dropped := s.setRegime (s.regime.endLoad .idle)
  if imageCrc img != crc || crcField img != crc then dropped.no "REGIME END" "CRC" []
  else if halfAt img 0 != 1 || wordAt img 4 != s.regime.stagedLength.getD 0 then
    dropped.no "REGIME END" "BAD" [fWord "HEADER", fNum 0]
  else
    let s := s.setRegime { s.regime with load := .writing, writeStarted := some s.now, torn := true }
    (s.setEngine (.writing .regime)).ok "REGIME END" [f1 (.hex 8 crc.toNat)]

/-- `REGIME END` (R15, R18, R175). -/
def execRegimeEnd (fields : List Text) (s : State) : Host.Outcome State Fault Refusal :=
  .next (s.request "REGIME END" fields (fields1 checkValue) fun s crc =>
    s.regimeGates "REGIME END" (· == .receiving) fun s =>
      if s.store.engine != .ready then s.no "REGIME END" "BUSY" [] else s.closeLoad crc)

/-! ### The end of the regime write (R19) -/

/-- The least time from `REGIME END` to completion (R19; log 16). -/
def regimeWriteLeast : Nat := 1500

/-- The regime write completes (R19). -/
def State.regimeWritten (s : State) : State :=
  let img := s.regime.image
  let n := halfAt img 2
  let s := s.setRegime { s.regime.endLoad .written with
    area := Mem.ofBytes erasedByte 0 img, torn := false, writtenNumber := some n }
  ((s.raise .regimeWritten .regime [fNum n]).resolveTrouble .regime .regimeWriteFailed).setEngine .ready

/-- The regime write fails (R19). -/
def State.regimeWriteFails (s : State) : State :=
  let s := s.setRegime (s.regime.endLoad .writeFailed)
  (s.enterTrouble .regime .regimeWriteFailed (some [.word "WRITE"])).setEngine .ready

/-- `REGIME_WRITE_END` (R19, R175). -/
def execRegimeWriteEnd (good : Bool) (s : State) : Host.Outcome State Fault Refusal :=
  match s.store.engine with
  | .writing .regime =>
    if good then
      if due s.now (s.regime.writeStarted.map (· + regimeWriteLeast)) then .next s.beginArrival.regimeWritten else .next s
    else .next s.beginArrival.regimeWriteFails
  | _ => .next s

/-! ### Activation (R21 to R24) -/

/-- A failed activation (R21). -/
def State.activationFails (s : State) (reason : String) (detail : List Field) : State :=
  let s := s.setRegime (s.regime.endLoad .idle)
  (s.enterTrouble .regime .regimeWriteFailed (some [.word "ACTIVATE"])).no "REGIME ACTIVATE" reason detail

/-- The image becomes the active regime, and every unit's records are rebuilt (R21 to R24). -/
def State.activate (s : State) (r : Regime) : State :=
  let old := s.regime.active
  let s := s.setRegime { s.regime with active := r }
  let s := { s with control := { s.control with fallback := false } }
  let s := s.resolveTrouble .regime .regimeFallback
  let s := s.setRegime (s.regime.endLoad .idle)
  let s := s.raise .regimeActivated .regime [fNum r.number]
  let s := (((s.rebindSense old).rebindLift old).rebindDoors old).rebindAnnouncements.settleHolders
  let s := (span 1 64).foldl State.placeIfAlarm s
  s.ok "REGIME ACTIVATE" [fNum r.number]

/-- `REGIME ACTIVATE` (R15, R21). -/
def execRegimeActivate (fields : List Text) (s : State) : Host.Outcome State Fault Refusal :=
  .next (s.request "REGIME ACTIVATE" fields fields0 fun s _ =>
    s.regimeGates "REGIME ACTIVATE" (· == .written) fun s =>
      match areaImage s.regime.area with
      | none => s.activationFails "CRC" []
      | some img =>
        match checkImage img with
        | .error (name, n) => s.activationFails "BAD" [fWord name.name, fNum n]
        | .ok r => s.activate r)

/-! ### The regime query (R25) -/

/-- The keyword of a load state. -/
def LoadState.name : LoadState → String
  | .idle => "IDLE" | .receiving => "RECEIVING" | .writing => "WRITING" | .written => "WRITTEN"
  | .writeFailed => "WRITE-FAILED"

/-- `REGIME?` (R25). -/
def execRegimeQuery (fields : List Text) (s : State) : Host.Outcome State Fault Refusal :=
  .next (s.request "REGIME?" fields fields0 fun s _ =>
    let u := s.regime
    s.ok "REGIME" ([fNum u.active.number, fNum u.active.format, fFlag s.control.fallback] ++ u.coldResult.fields ++
      [fWord u.load.name, fOptNum u.stagedLength, fOptNum u.writtenNumber]))

end Sys2Proof.Machine
end

