-- ==== Sys2Proof/Machine/Dispatch.lean ====
section
/-! DEFINITION. One arm for each command: a direct call of its meaning. -/

namespace Sys2Proof.Machine

def exec (i : Instr) (s : State) : Host.Outcome State Fault Refusal :=
  match i with
  | .coldStart => Sys2Proof.Machine.execColdStart s
  | .startUpSettleDeadline => Sys2Proof.Machine.execStartUpSettleDeadline s
  | .lineComplete chars => Sys2Proof.Machine.execLineComplete chars s
  | .check => Sys2Proof.Machine.execCheck s
  | .unknown => Sys2Proof.Machine.execUnknown s
  | .replyComplete => Sys2Proof.Machine.execReplyComplete s
  | .regimeBegin fields => Sys2Proof.Machine.execRegimeBegin fields s
  | .regimeData fields => Sys2Proof.Machine.execRegimeData fields s
  | .regimeEnd fields => Sys2Proof.Machine.execRegimeEnd fields s
  | .regimeWriteEnd good => Sys2Proof.Machine.execRegimeWriteEnd good s
  | .regimeActivate fields => Sys2Proof.Machine.execRegimeActivate fields s
  | .regimeQuery fields => Sys2Proof.Machine.execRegimeQuery fields s
  | .lineClassChange ch ohms => Sys2Proof.Machine.execLineClassChange ch ohms s
  | .bandAdoption ch => Sys2Proof.Machine.execBandAdoption ch s
  | .risingEdge ch => Sys2Proof.Machine.execRisingEdge ch s
  | .fallingEdge ch => Sys2Proof.Machine.execFallingEdge ch s
  | .holdDeadline ch => Sys2Proof.Machine.execHoldDeadline ch s
  | .starveDeadline ch => Sys2Proof.Machine.execStarveDeadline ch s
  | .steadyThreshold ch => Sys2Proof.Machine.execSteadyThreshold ch s
  | .spotDeadline ch ohms => Sys2Proof.Machine.execSpotDeadline ch ohms s
  | .chanQuery fields => Sys2Proof.Machine.execChanQuery fields s
  | .chanclr fields => Sys2Proof.Machine.execChanclr fields s
  | .spot fields => Sys2Proof.Machine.execSpot fields s
  | .confirmDeadline zone => Sys2Proof.Machine.execConfirmDeadline zone s
  | .escalationDeadline id => Sys2Proof.Machine.execEscalationDeadline id s
  | .zoneQuery fields => Sys2Proof.Machine.execZoneQuery fields s
  | .isolate fields => Sys2Proof.Machine.execIsolate fields s
  | .restore fields => Sys2Proof.Machine.execRestore fields s
  | .accept fields => Sys2Proof.Machine.execAccept fields s
  | .silence fields => Sys2Proof.Machine.execSilence fields s
  | .close fields => Sys2Proof.Machine.execClose fields s
  | .manual fields => Sys2Proof.Machine.execManual fields s
  | .incidents fields => Sys2Proof.Machine.execIncidents fields s
  | .incidentQuery fields => Sys2Proof.Machine.execIncidentQuery fields s
  | .carReport car report => Sys2Proof.Machine.execCarReport car report s
  | .orderTaken car landing => Sys2Proof.Machine.execOrderTaken car landing s
  | .orderRefused car landing reason => Sys2Proof.Machine.execOrderRefused car landing reason s
  | .callAsk car landing => Sys2Proof.Machine.execCallAsk car landing s
  | .invalidFrame car bytes => Sys2Proof.Machine.execInvalidFrame car bytes s
  | .frameGapTimeout car => Sys2Proof.Machine.execFrameGapTimeout car s
  | .linkDeadline car => Sys2Proof.Machine.execLinkDeadline car s
  | .phaseDeadline car => Sys2Proof.Machine.execPhaseDeadline car s
  | .guardSet fields => Sys2Proof.Machine.execGuardSet fields s
  | .guardClr fields => Sys2Proof.Machine.execGuardClr fields s
  | .guardQuery fields => Sys2Proof.Machine.execGuardQuery fields s
  | .guardlatch fields => Sys2Proof.Machine.execGuardlatch fields s
  | .carQuery fields => Sys2Proof.Machine.execCarQuery fields s
  | .goodScan expander readings => Sys2Proof.Machine.execGoodScan expander readings s
  | .scanMiss expander heard => Sys2Proof.Machine.execScanMiss expander heard s
  | .pacingDeadline => Sys2Proof.Machine.execPacingDeadline s
  | .releaseBondCheck door => Sys2Proof.Machine.execReleaseBondCheck door s
  | .lockBondCheck door => Sys2Proof.Machine.execLockBondCheck door s
  | .heldOpenDeadline door => Sys2Proof.Machine.execHeldOpenDeadline door s
  | .release fields => Sys2Proof.Machine.execRelease fields s
  | .releaseStair fields => Sys2Proof.Machine.execReleaseStair fields s
  | .lockStair fields => Sys2Proof.Machine.execLockStair fields s
  | .doorQuery fields => Sys2Proof.Machine.execDoorQuery fields s
  | .stairQuery fields => Sys2Proof.Machine.execStairQuery fields s
  | .stepDeadline prog => Sys2Proof.Machine.execStepDeadline prog s
  | .clipReadEnd prog => Sys2Proof.Machine.execClipReadEnd prog s
  | .azoneQuery fields => Sys2Proof.Machine.execAzoneQuery fields s
  | .progQuery fields => Sys2Proof.Machine.execProgQuery fields s
  | .tenant fields => Sys2Proof.Machine.execTenant fields s
  | .tenantCancel fields => Sys2Proof.Machine.execTenantCancel fields s
  | .tenantQuery fields => Sys2Proof.Machine.execTenantQuery fields s
  | .blockArrival samples => Sys2Proof.Machine.execBlockArrival samples s
  | .playoutDeadline => Sys2Proof.Machine.execPlayoutDeadline s
  | .liveStart fields => Sys2Proof.Machine.execLiveStart fields s
  | .liveZones fields => Sys2Proof.Machine.execLiveZones fields s
  | .liveStop fields => Sys2Proof.Machine.execLiveStop fields s
  | .liveQuery fields => Sys2Proof.Machine.execLiveQuery fields s
  | .erase fields => Sys2Proof.Machine.execErase fields s
  | .eraseEnd good => Sys2Proof.Machine.execEraseEnd good s
  | .storeSettleDeadline => Sys2Proof.Machine.execStoreSettleDeadline s
  | .write fields => Sys2Proof.Machine.execWrite fields s
  | .writeComplete good => Sys2Proof.Machine.execWriteComplete good s
  | .commit fields => Sys2Proof.Machine.execCommit fields s
  | .lockblk fields => Sys2Proof.Machine.execLockblk fields s
  | .permit fields => Sys2Proof.Machine.execPermit fields s
  | .abort fields => Sys2Proof.Machine.execAbort fields s
  | .storeQuery fields => Sys2Proof.Machine.execStoreQuery fields s
  | .clips fields => Sys2Proof.Machine.execClips fields s
  | .events fields => Sys2Proof.Machine.execEvents fields s
  | .troubles fields => Sys2Proof.Machine.execTroubles fields s
  | .maintOn fields => Sys2Proof.Machine.execMaintOn fields s
  | .maintOff fields => Sys2Proof.Machine.execMaintOff fields s
  | .restart fields => Sys2Proof.Machine.execRestart fields s
  | .hello fields => Sys2Proof.Machine.execHello fields s
  | .modeQuery fields => Sys2Proof.Machine.execModeQuery fields s
  | .lockDoor fields => Sys2Proof.Machine.execLockDoor fields s

end Sys2Proof.Machine
end

