-- ==== Sys2Proof/Machine/Clock.lean ====
section
/-! DEFINITION. The part's own clock: what happens when no command waits (log 1, log 2). -/

namespace Sys2Proof.Machine

/-- The commands of a list of numbers, each with the test that it is due. -/
def dueOf (numbers : List Nat) (test : Nat → Bool) (c : Nat → Instr) : Option Instr :=
  (numbers.find? test).map c

/-- A test of a sense channel's record. -/
def State.chanIs (s : State) (t : Chan → Bool) (n : Nat) : Bool :=
  match s.chan n with
  | none => false
  | some c => t c

/-- A test of a car's record. -/
def State.carIs (s : State) (t : Car → Bool) (n : Nat) : Bool :=
  match s.car n with
  | none => false
  | some c => t c

/-- A test of a door point's record. -/
def State.pointIs (s : State) (t : DoorPoint → Bool) (d : Nat) : Bool :=
  match s.point d with
  | none => false
  | some p => t p

/-- The first expiry that is due, in the fixed order of log 2: expiries of one kind by their number, escalations by
incident id. A spot measurement that the clock ends has been given no reading (log 17). -/
def State.firstDue (s : State) : Option Instr :=
  [if due s.now s.control.settle then some Instr.startUpSettleDeadline else none,
   dueOf (span 1 24) (s.chanIs fun c => ran s.now (c.candidate.map Prod.snd) 200) .bandAdoption,
   dueOf (span 1 24) (s.chanIs fun c => c.driven && ran s.now c.holdFrom s.regime.active.options.holdMs) .holdDeadline,
   dueOf (span 1 24) (s.chanIs fun c => due s.now c.starve) .starveDeadline,
   dueOf (span 1 24) (s.chanIs fun c => c.metered && ran s.now c.steadyFrom s.regime.active.options.steadyMs) .steadyThreshold,
   dueOf (span 1 24) (s.chanIs fun c => c.spotting && due s.now c.spotDeadline)
     (fun n => .spotDeadline n []),
   dueOf (span 1 64) (fun z => match s.zone z with
     | none => false
     | some r => due s.now r.confirm) .confirmDeadline,
   dueOf (span 1 255) (fun id => match s.incident id with
     | none => false
     | some i => due s.now i.escalation) .escalationDeadline,
   dueOf (span 1 6) (s.carIs fun c => due s.now c.linkDeadline) .linkDeadline,
   dueOf (span 1 6) (s.carIs fun c => c.phase.isSome && due s.now c.phaseDeadline) .phaseDeadline,
   if s.door.pacing ≤ s.now then some .pacingDeadline else none,
   dueOf (span 1 96) (s.pointIs fun p => p.checkDue .release s.now) .releaseBondCheck,
   dueOf (span 1 96) (s.pointIs fun p => p.checkDue .lock s.now) .lockBondCheck,
   dueOf (span 1 96) (s.pointIs fun p => due s.now p.heldDeadline) .heldOpenDeadline,
   ([Prog.evac, .alert, .tenant].find? fun p => due s.now (s.prog p).deadline).map .stepDeadline,
   ([Prog.evac, .alert, .tenant].find? fun p => match (s.prog p).read with
     | none => false
     | some r => r.played s.now).map .clipReadEnd,
   if due s.now s.live.playout then some .playoutDeadline else none,
   match s.store.engine with
     | .suspended _ _ settle => if due s.now settle then some .storeSettleDeadline else none
     | _ => none].findSome? id

/-- The last uptime of the clock, 4 294 967 295 s (R187; log 27). -/
def lastUptime : Nat := 4294967295000

/-- One millisecond passes; at its bound the clock is held (R187). -/
def State.tick (s : State) : State :=
  { s with control := { s.control with uptime := min (s.now + 1) lastUptime } }

/-- Nothing waits: the first expiry that is due is taken, else a millisecond passes (log 1). -/
def idle (s : State) : Host.Outcome State Fault Refusal :=
  match s.firstDue with
  | some c => exec c s
  | none => .next s.tick

end Sys2Proof.Machine
end

