-- ==== Sys2Proof/Safety.lean ====
section
/-! DEFINITION. The laws of the spec as invariants of a state: what every step keeps. -/

namespace Sys2Proof.Machine

/-- The event queue is in class order (R179). -/
def classSorted : List Event → Bool
  | [] => true
  | e :: es => es.all (fun x => decide (e.cls.num ≤ x.cls.num)) && classSorted es

/-- The event queue's law: at most 64 records, in class order (R179). -/
def State.eventLaw (s : State) : Bool := decide (s.event.queue.length ≤ 64) && classSorted s.event.queue

/-- The trouble list is in source order with one entry for each source (R183). -/
def sourceSorted : List TroubleEntry → Bool
  | [] => true
  | t :: ts => ts.all (fun x => decide (t.source.order < x.source.order)) && sourceSorted ts

/-- The trouble list's law: source order, one entry for each source, and no entry without a standing kind (R183). -/
def State.troubleLaw (s : State) : Bool :=
  sourceSorted s.event.troubles && s.event.troubles.all fun t => !t.kinds.isEmpty

/-- The input buffer holds at most two lines (R197). -/
def State.bufferLaw (s : State) : Bool := decide (s.line.buffer.length ≤ 2)

/-- The three byte stores are in canonical form. -/
def State.memoryLaw (s : State) : Bool :=
  s.regime.area.wf erasedByte && s.regime.staging.wf stagedByte && s.store.bytes.wf erasedByte

/-- What the state of a point says of its command, its demand and its bond check (Table 5-2, R108, R110, R114). -/
def State.pointLaw (s : State) (d : Nat) (p : DoorPoint) : Prop :=
  (s.releaseDemand d = true → p.state = .released ∨ p.state = .faultRelease ∨ p.state = .noScan) ∧
  (p.command = .lock → p.state = .secure ∨ p.state = .forced ∨ p.state = .locking ∨ p.state = .faultLock) ∧
  (d ∈ s.door.queue ↔ p.state = .relockWait) ∧
  (∀ c, p.check = some c → (c.kind = .release ∧ p.state = .released) ∨ (c.kind = .lock ∧ p.state = .locking)) ∧
  (∀ x, at1 s.door.expanders (expanderOf d) = some x → x.up = false → p.state = .noScan)

/-- The door law (R105, R108, R112): every present point obeys its state, the re-lock queue holds present points, each once, exactly the
points of the regime are present, and with no incident open no stair is released. -/
def State.doorLaw (s : State) : Prop :=
  (∀ d p, s.point d = some p → s.pointLaw d p) ∧
  s.door.queue.Nodup ∧ (∀ d ∈ s.door.queue, (s.point d).isSome = true) ∧
  (∀ d, (s.point d).isSome = (s.regime.active.door d).isSome) ∧
  (s.fire.incidents = [] → ∀ st, s.fire.demand.stair st = .none)

/-- The incident law (R48, R51, R57, R58): the zones of the regime have records, a zone belongs to an incident exactly while it is in ALARM and then
to one only, a confirm deadline runs in CONFIRMING only, ids and members are not repeated, no incident group has two incidents, and there are at
most eight. -/
structure State.incidentLaw (s : State) : Prop where
  zones : ∀ z, (s.zone z).isSome = (s.regime.active.zone z).isSome
  alarm : ∀ z r, s.zone z = some r → r.state = .alarm → ∃ i ∈ s.fire.incidents, r.incident = some i.id ∧ ∃ m ∈ i.members, m.zone = z
  quiet : ∀ z r, s.zone z = some r → r.state ≠ .alarm → r.incident = none
  confirm : ∀ z r, s.zone z = some r → r.confirm.isSome = true → r.state = .confirming
  member : ∀ i ∈ s.fire.incidents, ∀ m ∈ i.members, ∃ r, s.zone m.zone = some r ∧ r.state = .alarm ∧ r.incident = some i.id
  ids : (s.fire.incidents.map Incident.id).Nodup
  once : ∀ i ∈ s.fire.incidents, (i.members.map Member.zone).Nodup
  group : ∀ i ∈ s.fire.incidents, ∀ j ∈ s.fire.incidents, ∀ m ∈ i.members, ∀ k ∈ j.members, ∀ e f,
    s.regime.active.zone m.zone = some e → s.regime.active.zone k.zone = some f → e.group = f.group → i.id = j.id
  count : s.fire.incidents.length ≤ 8

/-- The law of the building demand and of what an open incident holds: the demand is that of the open incidents (R70); while one is open the mode is
not MAINTENANCE (R67), no tenant announcement plays or waits (R143), and the store engine is not ERASING (R173). -/
structure State.holdLaw (s : State) : Prop where
  demand : s.fire.demand = demandOf s.regime.active s.control.fallback s.fire.incidents
  mode : s.fire.incidents ≠ [] → s.control.mode ≠ .maintenance
  tenant : s.fire.incidents ≠ [] → s.ann.playing = none ∧ s.ann.queue = []
  erase : s.fire.incidents ≠ [] → ∀ job, s.store.engine ≠ .erasing job

/-- The cadence meter law (R30, R31, R33): four meters, each with one channel at most; a used DRIVEN channel, and no other, has a CADENCE meter or
waits for one; the meter-wait queue holds the waiting channels, each once, and no meter is FREE while it is not empty. -/
structure State.meterLaw (s : State) : Prop where
  four : ∀ n c m, s.chan n = some c → c.meter = some m → 1 ≤ m ∧ m ≤ 4
  one : ∀ n k c d m, s.chan n = some c → s.chan k = some d → c.meter = some m → d.meter = some m → n = k
  driven : ∀ n c, s.chan n = some c →
    ((c.driven = true ∧ s.regime.active.used n = true) ↔ (c.metered = true ∨ c.binding = .waiting))
  spot : ∀ n c, s.chan n = some c → c.spotting = true → c.driven = false
  waiting : ∀ n, n ∈ s.sense.queue ↔ ∃ c, s.chan n = some c ∧ c.binding = .waiting
  nodup : s.sense.queue.Nodup
  free : s.sense.queue ≠ [] → s.sense.freeMeter = none

/-- The lift law (R82, R94, R98): a RECALLING car has a target that is not barred, a CREW car lists no barred landing unless its key is at OVERRIDE, and
no other car lists a landing; an arrival report is late in phase SENT only (log 61). -/
structure State.liftLaw (s : State) : Prop where
  target : ∀ n c, s.car n = some c → c.service = .recalling → ∃ t, c.target = some t ∧ s.barred (s.carGroup n) t = false
  calls : ∀ n c, s.car n = some c → c.service = .crew → c.key ≠ .override → ∀ l ∈ c.calls, s.barred (s.carGroup n) l = false
  none : ∀ n c, s.car n = some c → c.service ≠ .crew → c.calls = []
  late : ∀ n c, s.car n = some c → c.late.isSome = true → c.service = .recalling ∧ c.phase = some .sent

/-- The clip store law: a write in flight lies in one UNLOCKED block (R157, R165, R167); a suspended erase has no permit (R163, R172, R173); the engine
writes the regime exactly in load state WRITING (R175), and the regime area is then torn (R13, R19). -/
structure State.storeLaw (s : State) : Prop where
  data : ∀ bank block offset bytes, s.store.engine = .writing (.data bank block offset bytes) →
    s.store.locked bank block = false ∧ offset + bytes.length ≤ blockSize
  header : ∀ e, s.store.engine = .writing (.header e) → s.store.locked e.bank e.first = false
  permit : ∀ job cause settle, s.store.engine = .suspended job cause settle → s.store.permit = false
  load : s.regime.load = .writing ↔ s.store.engine = .writing .regime
  torn : s.store.engine = .writing .regime → s.regime.torn = true ∧ s.regime.writeStarted.isSome = true

/-- The address lies in the block the engine is erasing, or in the UNLOCKED block it is writing clip data into (R157). -/
def State.mayChange (s : State) (a : Nat) : Prop :=
  (∃ job, s.store.engine = .erasing job ∧ blockBase job.bank job.block ≤ a ∧ a < blockBase job.bank job.block + blockSize) ∨
  (∃ bank block offset bytes, s.store.engine = .writing (.data bank block offset bytes) ∧ s.store.locked bank block = false ∧
    blockBase bank block ≤ a ∧ a < blockBase bank block + blockSize)

/-- The header at a clip's first block spells it and passes the tests of the scan, but for those against other clips (R160). -/
def ClipStore.validHeader (c : ClipStore) (e : DirEntry) : Prop :=
  (e.bank, e.first) ∈ allBlocks ∧ c.headerOf e.bank e.first = some (e.id, e.length, e.crc) ∧ (1 ≤ e.id ∧ e.id ≤ 127) ∧
  (1 ≤ e.length ∧ e.length ≤ 2097136) ∧ e.first + clipBlocks e.length ≤ 17 ∧
  (∀ k ∈ touched e.first e.length, c.sound e.bank k = true) ∧ crc32 (c.dataBytes e.bank e.first e.length) = e.crc

/-- The order of the cold-start scan: the lower bank first, then the lower block (R160). -/
def scansBefore (f e : Nat × Nat) : Prop := f.1 < e.1 ∨ (f.1 = e.1 ∧ f.2 < e.2)

/-- The directory is what the scan of a cold start makes of the headers (R160): its entries are valid, in id order, and none begins inside another;
and a valid header is passed over only for an entry scanned before it that lies over its block or has its id. -/
structure ClipStore.scanned (c : ClipStore) : Prop where
  valid : ∀ e ∈ c.directory, c.validHeader e
  order : c.directory.Pairwise fun e f => e.id < f.id
  apart : ∀ e ∈ c.directory, ∀ f ∈ c.directory, e ≠ f → f.touches e.bank e.first = false
  whole : ∀ e, c.validHeader e → e ∉ c.directory → ∃ f ∈ c.directory, scansBefore (f.bank, f.first) (e.bank, e.first) ∧
    (f.touches e.bank e.first = true ∨ f.id = e.id)

/-- The audio law (R122, R133): every audio zone's holder is the highest-priority programme that claims it and is PLAYING or HELD-SILENT, none for an
absent zone; LIVE plays no script and reads no clip. -/
structure State.audioLaw (s : State) : Prop where
  holder : ∀ a z, at1 s.ann.zones a = some z → z.holder = s.rightHolder a
  live : s.ann.live.state ≠ .heldSilent ∧ s.ann.live.deadline = none ∧ s.ann.live.read = none ∧ s.ann.live.step = none
  reads : ∀ r ∈ s.store.reads, r.prog ≠ .live

/-! ### How a changed building demand is handed out (R70) -/

/-- Between `s` and `u`, within one arrival, the event unit took some events of this uptime, and `e` was one of them (R178 to R180). -/
def State.raises (s u : State) (e : Event) : Prop :=
  ∃ l : List Event, e ∈ l ∧ (∀ x ∈ l, x.time = s.now) ∧ (l.foldl EventUnit.take s.event).queue = u.event.queue ∧
    (l.foldl EventUnit.take s.event).gap = u.event.gap

/-- A car record after an abort in `u` (R91). -/
def State.aborted (u : State) (c : Car) (code : AbortCode) : Car :=
  { c.settled .out with lastAbort := some ⟨code, none, c.lastLanding, u.now⟩ }

/-- A car sent to its recall target, or aborted when there is none, with the frame of the service it leaves (R85, R86, R91). -/
def State.recalled (u : State) (n : Nat) (c : Car) : Car × List PartFrame :=
  match u.recallTarget (u.carGroup n) with
  | some t =>
    ({ c.settled .recalling with target := some t, phase := some .sent, phaseDeadline := some (u.now + 1000) }, [.recallTo t])
  | none => (u.aborted c .noSafeLanding, if c.service = .recalling then [.cancelRecall] else [])

/-- A TENANT car to which the demand is applied (R93). -/
def State.demanded (u : State) (n : Nat) (c : Car) : Car × List PartFrame :=
  if c.linkUp then u.recalled n c else (u.aborted c .linkLost, [])

/-- What a guard change that leaves the guards of `u` makes of a car, and the frames it sends (R82, R92, R94, R95, R98). -/
def State.afterGuards (u : State) (n : Nat) (c : Car) : Car × List PartFrame :=
  let g := u.carGroup n
  match c.service, c.target with
  | .recalling, some t =>
    if u.barred g t then
      let x := u.recalled n c
      ({ x.1 with late := (u.recallTarget g).bind fun new => c.lateAfter t new }, x.2)
    else (c, [])
  | .homed, some t => if u.barred g t then u.recalled n c else (c, [])
  | .crew, _ =>
    if c.key = .override then (c, [])
    else ({ c with calls := c.calls.filter fun l => !u.barred g l }, (c.calls.filter fun l => u.barred g l).map .callCancel)
  | .out, _ =>
    if c.lastAbort.map LastAbort.code = some .noSafeLanding ∧ ∃ l ∈ u.regime.active.served g, u.barred g l = false then
      if u.fire.demand.recallGroups.contains g then u.demanded n { c with service := .tenant } else ({ c with service := .tenant }, [])
    else (c, [])
  | _, _ => (c, [])

/-- What a change of the recall groups from `old` to those of `u` makes of a car, and the frames it sends (R93). -/
def State.afterRecall (u : State) (old : List Nat) (n : Nat) (c : Car) : Car × List PartFrame :=
  let g := u.carGroup n
  match c.service with
  | .tenant => if u.fire.demand.recallGroups.contains g then u.demanded n c else (c, [])
  | .recalling => if !u.fire.demand.recallGroups.contains g && old.contains g then (c.settled .tenant, [.cancelRecall]) else (c, [])
  | .homed => if !u.fire.demand.recallGroups.contains g && old.contains g then (c.settled .tenant, [.release]) else (c, [])
  | _ => (c, [])

/-- The lift unit of `s` has taken the demand of `u`: the incident marks, then the guard change, then the recall groups (R82, R93). -/
def State.liftTook (s u : State) : Prop :=
  (∀ f, f < 64 → u.lift.guard f = { s.lift.guard f with
    incident := (u.regime.active.floor f).isSome && u.fire.demand.guardFloors.contains f }) ∧
  (∀ n c, s.car n = some c →
    let x := if s.lift.marks = u.lift.marks then (c, []) else u.afterGuards n c
    let y := if s.fire.demand.recallGroups = u.fire.demand.recallGroups then (x.1, [])
      else u.afterRecall s.fire.demand.recallGroups n x.1
    u.car n = some y.1 ∧ (u.lift.sent.filter fun f => f.1 == n).map Prod.snd = x.2 ++ y.2)

/-- The door unit of `s` has taken the demand of `u`: release demands that begin and end, and open doors timed again when store freeze has ended (R108,
R109, R111, R116). -/
def State.doorTook (s u : State) : Prop :=
  ∀ d p, 1 ≤ d → d ≤ 96 → s.point d = some p → ∃ q, u.point d = some q ∧
    let same := q.command = p.command ∧ q.state = p.state ∧ q.check = p.check ∧ (d ∈ u.door.queue ↔ d ∈ s.door.queue)
    (match s.releaseDemand d, u.releaseDemand d with
      | false, true =>
        match p.state with
        | .secure | .forced | .faultLock =>
          q.command = .release ∧ q.state = .released ∧ q.check = some ⟨.release, none⟩ ∧ u.event.stands (.door d) .doorFaultLock = false
        | .locking => q.command = .release ∧ q.state = .released ∧ q.check = some ⟨.release, none⟩
        | .relockWait => q.command = p.command ∧ q.state = .released ∧ q.check = p.check ∧ d ∉ u.door.queue
        | .closeWait => q.command = p.command ∧ q.state = .released ∧ q.check = p.check
        | _ => same
      | true, false =>
        match p.state with
        | .released | .faultRelease =>
          q.command = p.command ∧ q.check = none ∧ u.event.stands (.door d) .doorFaultRelease = false ∧
          (if p.closed = some true then q.state = .relockWait ∧ d ∈ u.door.queue else q.state = .closeWait)
        | _ => same
      | _, _ => same) ∧
    (match s.fire.demand.freeze && !u.fire.demand.freeze && p.closed == some false && !p.heldFlag, p.openSince with
      | true, some t =>
        if t + s.heldLimit d < s.now then q.heldFlag = true ∧ q.heldDeadline = none ∧ s.raises u ⟨.status, .heldOpen, s.now, .door d, [fTime t]⟩
        else q.heldFlag = false ∧ q.heldDeadline = some (t + s.heldLimit d)
      | _, _ => q.heldFlag = p.heldFlag ∧ q.heldDeadline = p.heldDeadline)

/-- The CLIP-MISSING event of programme `p`, whose step plays the fallback tone in place of a clip (R131, R132). -/
def State.clipMissing (s : State) (p : Prog) (clip : Nat) (cause : String) (pass step : Option Nat) : Event :=
  ⟨(match p with
    | .evac | .alert => .fireFault
    | _ => .trouble), .clipMissing, s.now, .prog (progNumber p), [fNum clip, fWord cause, fOptNum pass, fOptNum step]⟩

/-- In `u` the programme `p`, whose record in `s` is taken as `r0`, stands at the start of step `j`, which is `st`, in pass `k`, its clip judged
by the clip store `c`; a clip first missing in the run is reported (R125 to R132). A GAP of 0 ms has no start to stand at. -/
def State.startedStep (s u : State) (r0 : ProgRec) (c : ClipStore) (p : Prog) (j k : Nat) (st : Step) : Prop :=
  let r : ProgRec := { r0 with
    step := some j, pass := some k, stepAt := some s.now, deadline := none, read := none, voice := none, stepTone := none }
  let fallback := s.regime.active.tone s.regime.active.options.fallbackTone
  let reading (cr : ClipRead) : ProgRec := { r with read := some cr, stepTone := some fallback }
  let substituted (clip : Nat) (bank : Option Nat) (cause : String) : Prop :=
    u.prog p = { reading (.substituted clip bank) with
      deadline := some (s.now + 3000), voice := some (fallback, s.now)
      missing := if clip ∈ r.missing then r.missing else r.missing ++ [clip] } ∧
    (clip ∉ r.missing → s.raises u (s.clipMissing p clip cause (some k) (some j)))
  match st with
  | .tone t ms => u.prog p = { r with deadline := some (s.now + ms), voice := some (s.regime.active.tone t, s.now) }
  | .gap ms => ms ≠ 0 → u.prog p = { r with deadline := some (s.now + ms) }
  | .clip id =>
    match c.find id with
    | none => substituted id none "ABSENT"
    | some e =>
      match c.engine.judge u.fire.demand.freeze e.bank with
      | .delivers => u.prog p = reading (.streaming id e.bank s.now e.length)
      | .waits _ => u.prog p = reading (.waiting id e.bank)
      | .refused => substituted id (some e.bank) "REFUSED"

/-- In `u` the fire programme `p` of `s` has taken the claim set `zs`: from IDLE, and from HELD-SILENT when a zone joins, it is PLAYING at step 1 of
pass 1, and without a zone it is IDLE, each change reported; else it goes on with the new set (R124, R125). -/
def State.claimsTook (s u : State) (p : Prog) (zs : List Nat) : Prop :=
  let r := s.prog p
  let raised (fields : List Field) : Prop := s.raises u ⟨.status, .programmeState, s.now, .prog (progNumber p), fields⟩
  if zs = [] ∧ r.state ≠ .idle then u.prog p = { r.stopped .idle with claims := [] } ∧ raised [fWord "IDLE", fNone]
  else if zs ≠ [] ∧ (r.state = .idle ∨ (r.state = .heldSilent ∧ ∃ a ∈ zs, a ∉ r.claims)) then
    raised [fWord "PLAYING", fNum 1] ∧
    ∀ st, (s.scriptOf p).steps[0]? = some st → st ≠ .gap 0 →
      s.startedStep u { r with state := .playing, claims := zs, missing := [] } s.store p 1 1 st
  else u.prog p = { r with claims := zs }

/-- The announcement unit of `s` has taken the demand of `u`: the tenant stop, the claim sets of EVAC and ALERT with the runs they begin and end, the
holders (R123, R124, R143). -/
def State.annTook (s u : State) : Prop :=
  (s.fire.demand.tenantStop = false → u.fire.demand.tenantStop = true → u.ann.playing = none ∧ u.ann.queue = [] ∧
    ∀ a ∈ s.ann.playing.toList ++ s.ann.queue, s.raises u ⟨.status, .tenantDone, s.now, .ticket a.ticket, [fWord "PREEMPTED"]⟩) ∧
  u.ann.evac.claims = u.regime.active.presentAzones (u.fire.demand.claimed .evac) ∧ (u.ann.evac.state = .idle ↔ u.ann.evac.claims = []) ∧
  u.ann.alert.claims = u.regime.active.presentAzones (u.fire.demand.claimed .alert) ∧ (u.ann.alert.state = .idle ↔ u.ann.alert.claims = []) ∧
  s.claimsTook u .evac (u.regime.active.presentAzones (u.fire.demand.claimed .evac)) ∧
  s.claimsTook u .alert (u.regime.active.presentAzones (u.fire.demand.claimed .alert)) ∧
  ∀ a z, at1 u.ann.zones a = some z → z.holder = u.rightHolder a

/-- The clip store of `s` has taken the demand of `u`: a running erase is suspended when store freeze begins and a suspended one stays so; when it has
ended, a suspended erase resumes unless a read of its bank is in progress (R173, R174). -/
def State.storeTook (s u : State) : Prop :=
  (s.fire.demand.freeze = false → u.fire.demand.freeze = true →
    (∀ job, s.store.engine = .erasing job → u.store.permit = false ∧ ∃ k cause, u.store.engine = .suspended k cause (some (s.now + 20)) ∧
      k.bank = job.bank ∧ k.block = job.block ∧ k.erased = job.erased + (s.now - job.since)) ∧
    (∀ job cause settle, s.store.engine = .suspended job cause settle → u.store.engine = s.store.engine)) ∧
  (s.fire.demand.freeze = true → u.fire.demand.freeze = false → ∀ job cause settle, s.store.engine = .suspended job cause settle →
    u.store.engine = if u.store.readIn job.bank then s.store.engine else .erasing { job with since := s.now })

/-! ### How the lift and door records are re-bound at activation (R23, R24) -/

/-- In `u` car `n` of `s` is re-bound to the active regime of `u`: kept, with crew service ended if its group changed, and then taken through the
change of the guards; dropped; or new, with the frames of each (R23). -/
def State.carRebound (s u : State) (n : Nat) : Prop :=
  let frames := (u.lift.sent.filter fun f => f.1 == n).map Prod.snd
  match s.car n, rec1 u.regime.active.cars n with
  | some c, some g =>
    let x : Car × List PartFrame := if c.service = .crew ∧ rec1 s.regime.active.cars n ≠ some g then
        (c.settled .tenant, [.callCancelAll, .release])
      else (c, [])
    u.car n = some (u.afterGuards n x.1).1 ∧ frames = x.2 ++ (u.afterGuards n x.1).2
  | some c, none =>
    u.car n = none ∧ u.event.stands (.car n) .liftLost = false ∧ u.event.stands (.car n) .liftOut = false ∧
    frames = if c.service = .crew then [.callCancelAll, .release] else []
  | none, some _ => u.car n = some (Car.fresh s.now) ∧ frames = []
  | none, none => u.car n = none ∧ frames = []

/-- In `u` door point `d` of `s`, which has a record exactly if its regime has it, is re-bound to the active regime of `u`: kept, with an open door
timed against the new limit; dropped; or new (R24). -/
def State.pointRebound (s u : State) (d : Nat) : Prop :=
  (s.point d).isSome = (s.regime.active.door d).isSome →
  match s.point d, u.regime.active.door d with
  | some p, some _ =>
    u.point d = some (match p.openSince, p.heldFlag with
      | some t, false => { p with heldDeadline := some (t + u.heldLimit d) }
      | _, _ => p) ∧
    (d ∈ u.door.queue ↔ d ∈ s.door.queue)
  | some _, none =>
    u.point d = none ∧ d ∉ u.door.queue ∧ u.lockOutput d = .release ∧
    u.event.stands (.door d) .doorFaultLock = false ∧ u.event.stands (.door d) .doorFaultRelease = false
  | none, some _ =>
    (∀ x, at1 u.door.expanders (expanderOf d) = some x → u.point d = some { DoorPoint.cold with
      state := if x.up = false then .noScan else if u.releaseDemand d = true then .released else .closeWait }) ∧
    (d ∈ u.door.queue ↔ d ∈ s.door.queue)
  | none, none => u.point d = none

/-! ### What a request leaves in the line interface (R197, R198, R200) -/

/-- The `OK` line of a request taken in `s` (R200). -/
def State.okLine (s : State) (word : String) (fields : List Field) : SentLine :=
  [fWord "OK", fWord word] ++ s.mark ++ fields

/-- The `NO` line of a request refused in `s` (R200). -/
def State.noLine (s : State) (kw reason : String) (detail : List Field) : SentLine :=
  [fWord "NO", f1 (refusalWord kw)] ++ s.mark ++ fWord reason :: detail

/-- The line interface of `s` once a request has its reply: the line stays in the buffer, and the mark has gone into the reply unless EV
lines are sent first (R197). -/
def State.lineWith (s : State) (kw : String) (fields : List Text) (reply : Reply) : LineIf :=
  { s.line with
    buffer := if s.line.buffer.isEmpty then [requestLine kw fields] else s.line.buffer
    overrun := if reply.events.isEmpty then false else s.line.overrun
    reply := some reply
    sent := [] }

/-- `s` with a request answered and nothing else done; what the arrival before sent on the lift lines has gone. -/
def State.answered (s : State) (kw : String) (fields : List Text) (l : SentLine) : State :=
  { s with line := s.lineWith kw fields ⟨[], l⟩, lift := { s.lift with sent := [] } }

/-- The keyword and the fields of a command that is a request (Table 10-3). -/
def requestOf : Instr → Option (String × List Text)
  | .regimeBegin f => some ("REGIME BEGIN", f)
  | .regimeData f => some ("REGIME DATA", f)
  | .regimeEnd f => some ("REGIME END", f)
  | .regimeActivate f => some ("REGIME ACTIVATE", f)
  | .regimeQuery f => some ("REGIME?", f)
  | .chanQuery f => some ("CHAN?", f)
  | .chanclr f => some ("CHANCLR", f)
  | .spot f => some ("SPOT", f)
  | .zoneQuery f => some ("ZONE?", f)
  | .isolate f => some ("ISOLATE", f)
  | .restore f => some ("RESTORE", f)
  | .accept f => some ("ACCEPT", f)
  | .silence f => some ("SILENCE", f)
  | .close f => some ("CLOSE", f)
  | .manual f => some ("MANUAL", f)
  | .incidents f => some ("INCIDENTS", f)
  | .incidentQuery f => some ("INCIDENT?", f)
  | .guardSet f => some ("GUARD SET", f)
  | .guardClr f => some ("GUARD CLR", f)
  | .guardQuery f => some ("GUARD?", f)
  | .guardlatch f => some ("GUARDLATCH", f)
  | .carQuery f => some ("CAR?", f)
  | .release f => some ("RELEASE", f)
  | .releaseStair f => some ("RELEASE", stairKeyword :: f)
  | .lockDoor f => some ("LOCK", f)
  | .lockStair f => some ("LOCK", stairKeyword :: f)
  | .doorQuery f => some ("DOOR?", f)
  | .stairQuery f => some ("STAIR?", f)
  | .azoneQuery f => some ("AZONE?", f)
  | .progQuery f => some ("PROG?", f)
  | .tenant f => some ("TENANT", f)
  | .tenantCancel f => some ("TENANT CANCEL", f)
  | .tenantQuery f => some ("TENANT?", f)
  | .liveStart f => some ("LIVE START", f)
  | .liveZones f => some ("LIVE ZONES", f)
  | .liveStop f => some ("LIVE STOP", f)
  | .liveQuery f => some ("LIVE?", f)
  | .erase f => some ("ERASE", f)
  | .write f => some ("WRITE", f)
  | .commit f => some ("COMMIT", f)
  | .lockblk f => some ("LOCKBLK", f)
  | .permit f => some ("PERMIT", f)
  | .abort f => some ("ABORT", f)
  | .storeQuery f => some ("STORE?", f)
  | .clips f => some ("CLIPS", f)
  | .events f => some ("EVENTS", f)
  | .troubles f => some ("TROUBLES", f)
  | .maintOn f => some ("MAINT ON", f)
  | .maintOff f => some ("MAINT OFF", f)
  | .restart f => some ("RESTART", f)
  | .hello f => some ("HELLO", f)
  | .modeQuery f => some ("MODE?", f)
  | _ => none

/-- A command that is a request taken now, in its turn (R198; log 4). -/
def State.takes (s : State) (c : Instr) : Bool :=
  match requestOf c with
  | none => false
  | some (kw, f) => s.turn kw f

/-- The command is answered with an `OK` line and changes nothing else. -/
def State.reports (s : State) (c : Instr) (word : String) (fields : List Field) : Prop :=
  ∃ kw f, requestOf c = some (kw, f) ∧ exec c s = .next (s.answered kw f (s.okLine word fields))

/-- The command is refused and changes nothing else. -/
def State.refuses (s : State) (c : Instr) (reason : String) (detail : List Field) : Prop :=
  ∃ kw f, requestOf c = some (kw, f) ∧ exec c s = .next (s.answered kw f (s.noLine kw reason detail))

/-- In `u` the zone that channel `n` names, if it was present in `s`, has been handed the strongest signal of its channels: a zone whose signal that
changes has taken it, with all that follows for zones, incidents and the demand; else nothing there has changed (R46, R49 to R52). -/
def State.signalHanded (s u : State) (n : Nat) : Prop :=
  ∀ z r, (s.regime.active.channel n).zone = some z → s.zone z = some r →
    (∃ x, u.zone z = some x ∧ x.signal = u.zoneSignal z) ∧
    u.fire = if u.zoneSignal z = r.signal then s.fire else (s.zoneTakesSignal z (u.zoneSignal z)).fire

/-- A store request is refused: the permit goes and nothing else changes (R161). -/
def State.storeRefuses (s : State) (c : Instr) (reason : String) (detail : List Field) : Prop :=
  ∃ kw f, requestOf c = some (kw, f) ∧
    exec c s = .next { s.answered kw f (s.noLine kw reason detail) with store := { s.store with permit := false } }

end Sys2Proof.Machine
end

