-- ==== Sys2Proof/Certificates/Slice0/Obligations.lean ====
section
/-! DEFINITION. The statements about the part, for the provers. `s.takes c` says that the request `c` is taken now, in its turn (log 4);
`s.reports` and `s.refuses` that it is answered and nothing else changes. An equation `exec c s = .next t` says what `c` changes and, by
`t`'s being `s` with fields replaced, that it changes nothing else. -/

open Sys2Proof Sys2Proof.Machine

/-! ### The queue, the clock, reset and cold start -/

/-- The command at the front is run with the queue's rest. -/
def Obligations.StepRunsTheFrontCommand : Prop :=
  ∀ (s : State) (c : Instr) (q : List Instr), s.pending = c :: q → step s = exec c { s with pending := q }

/-- The model's own clock (log 1, log 2, log 27): on an empty queue the first due expiry is taken, else a millisecond passes. -/
def Obligations.EmptyQueueTakesDueExpiryOrOneMillisecond : Prop :=
  ∀ s : State, s.pending = [] →
    (∀ c, s.firstDue = some c → step s = exec c s) ∧
    (s.firstDue = none →
      step s = .next { s with control := { s.control with uptime := min (s.control.uptime + 1) 4294967295000 } })

/-- Every command is answered with a next state, and none touches the queue. -/
def Obligations.EveryCommandCompletesAndKeepsTheQueue : Prop :=
  ∀ (c : Instr) (s : State), ∃ t, exec c s = .next t ∧ t.pending = s.pending

/-- Reset is the first cold start of a new part (9.6; the blank nonvolatile store is log 6): every unit's cold-start values, on the fallback
regime, with the one event and the one trouble that report it. A further cold start changes nothing. -/
def Obligations.ResetIsTheFirstColdStart : Prop :=
  exec .coldStart State.reset = .next State.reset ∧
  State.reset.control = { mode := .starting, fallback := true, uptime := 0, settle := some 10000 } ∧
  State.reset.regime.active = fallbackRegime ∧ State.reset.regime.coldResult = .blank ∧ State.reset.regime.load = .idle ∧
  (∀ n ∈ span 1 24, State.reset.chan n = some Chan.cold) ∧ State.reset.sense.queue = [] ∧
  (∀ z ∈ span 1 24, State.reset.zone z = some Zone.cold) ∧ (∀ z ∈ span 25 64, State.reset.zone z = none) ∧
  State.reset.fire.incidents = [] ∧ State.reset.fire.nextId = 1 ∧ State.reset.fire.demand = Demand.empty ∧
  (∀ n ∈ span 1 6, State.reset.car n = some (Car.fresh 0)) ∧ State.reset.lift.latch = none ∧
  (∀ d ∈ span 1 96, State.reset.point d = some DoorPoint.cold ∧ State.reset.lockOutput d = .release) ∧
  State.reset.door.queue = [] ∧ (∀ e ∈ span 1 12, at1 State.reset.door.expanders e = some Expander.cold) ∧
  (∀ p, State.reset.prog p = ProgRec.cold) ∧ State.reset.ann.playing = none ∧ State.reset.ann.queue = [] ∧
  State.reset.ann.nextTicket = 1 ∧ State.reset.live = LivePage.cold ∧
  State.reset.store.engine = .ready ∧ State.reset.store.permit = false ∧ State.reset.store.lastError = .none ∧
  State.reset.event.queue = [{ cls := .fireFault, kind := .troubleOn, time := 0, source := .regime
                               fields := [fWord "REGIME-FALLBACK", fWord "BLANK"] }] ∧
  State.reset.event.gap = false ∧ State.reset.attn = true ∧
  State.reset.event.troubles = [⟨.regime, [⟨.regimeFallback, .fireFault, some [.word "BLANK"], 0⟩]⟩]

/-- A cold start judges the regime area (1.8): OK makes its image the active regime; BLANK, CRC and BAD make the fallback regime active and
enter REGIME-FALLBACK; an area whose write did not complete reads BLANK or CRC. Every unit takes its cold-start values; what is nonvolatile is
kept (9.6), and the clip directory is what the scan makes of the headers that are found (8.2). The model's choices in it: drive is taken as absent
(log 6), the block of a write in flight is UNKNOWN (log 9), an erase in flight leaves the bytes as they were (log 58), a header is kept as its fields
(log 8), and the expanders' own outputs are RELEASE as at a common power-up (log 42). -/
def Obligations.ColdStartLoadsRegimeOrFallback : Prop :=
  ∀ s : State, ∃ t, exec .coldStart s = .next t ∧
    (s.regime.torn = true → (t.regime.coldResult = .blank ∨ t.regime.coldResult = .crc) ∧ t.regime.active = fallbackRegime) ∧
    (s.regime.torn = false →
     let blank := (s.regime.area.slice erasedByte 0 16).all fun b => b == 0xFF
     match blank, areaImage s.regime.area with
     | true, _ => t.regime.coldResult = .blank ∧ t.regime.active = fallbackRegime
     | false, none => t.regime.coldResult = .crc ∧ t.regime.active = fallbackRegime
     | false, some img =>
       match checkImage img with
       | .ok r => t.regime.coldResult = .ok ∧ t.regime.active = r
       | .error (name, n) => t.regime.coldResult = .bad name n ∧ t.regime.active = fallbackRegime) ∧
    (if t.regime.coldResult = .ok then t.control.fallback = false ∧ t.event = { queue := [], gap := false, troubles := [] }
     else t.control.fallback = true ∧
      t.event = {
        queue := [{ cls := .fireFault, kind := .troubleOn, time := 0, source := .regime
                    fields := [fWord "REGIME-FALLBACK", [t.regime.coldResult.detail]] }]
        gap := false
        troubles := [⟨.regime, [⟨.regimeFallback, .fireFault, some t.regime.coldResult.detail, 0⟩]⟩] }) ∧
    t.control.mode = .starting ∧ t.control.uptime = 0 ∧ t.control.settle = some 10000 ∧
    t.line = LineIf.cold ∧ t.sense = Sense.cold ∧ t.fire = FireUnit.cold t.regime.active ∧
    t.lift = LiftUnit.cold t.regime.active ∧ t.door = DoorUnit.cold t.regime.active ∧ t.ann = AnnUnit.cold ∧
    t.live = LivePage.cold ∧ t.store.engine = .ready ∧ t.store.permit = false ∧ t.store.lastError = .none ∧
    t.store.reads = [] ∧ t.store.bytes = s.store.bytes ∧ t.store.blocks = s.store.afterPowerLoss.blocks ∧ t.store.scanned ∧
    t.regime.area = s.regime.area ∧ t.regime.load = .idle ∧ t.regime.staging = [] ∧ t.pending = s.pending

/-! ### The line interface -/

/-- A request out of its turn is not taken and nothing changes (log 4). Every request in its turn gets exactly one reply line, its line keeps its
place in the buffer, and the reply carries the overrun mark, but for an EVENTS reply with EV lines, whose closing line takes it as the reply
completes (10.3, 10.6; log 44). RESTART alone sends its reply within the arrival and empties the
buffer (log 18). -/
def Obligations.RequestsInTurnGetOneReply : Prop :=
  (∀ (s : State) (c : Instr) (kw : String) (f : List Text), requestOf c = some (kw, f) → s.turn kw f = false →
    exec c s = .next s) ∧
  (∀ (s : State) (c : Instr) (kw : String) (f : List Text), requestOf c = some (kw, f) → s.turn kw f = true →
    ∃ t, exec c s = .next t ∧
      ((∃ r, t.line = s.lineWith kw f r ∧ (r.events = [] → r.line.tail.tail.take s.mark.length = s.mark)) ∨
       ((∃ g, c = .restart g) ∧ t.line = { s.line with
          buffer := [], overrun := false, reply := none, sent := [s.okLine "RESTART" []] })))

/-- A line of a good form is buffered with its text and its check value, and a third sets the overrun mark. A line feed with nothing or only a
carriage return before it closes an empty line; one after a break or a framing error closes a damaged line, which takes its place in the buffer
(10.2, 10.3). -/
def Obligations.LinesEnterTheBuffer : Prop :=
  (∀ (s : State) (body : Text) (check : Crc16), s.line.rx = [] → s.line.rxMore = false →
    body.all bodyChar = true → body.length ≤ 295 →
    let wire := (body ++ '~' :: digitsText 16 4 check.toNat).map (fun c => RxChar.char (BitVec.ofNat 8 c.toNat))
    exec (.lineComplete (wire ++ [.char 0x0D, .char 0x0A])) s = .next { s.beginArrival with
      line := if s.line.buffer.length < 2 then { s.line with sent := [], buffer := s.line.buffer ++ [.formed body check] }
              else { s.line with sent := [], overrun := true } }) ∧
  (∀ s : State, s.line.rx = [] → s.line.rxMore = false →
    exec (.lineComplete [.char 0x0A]) s = .next s.beginArrival ∧
    exec (.lineComplete [.char 0x0D, .char 0x0A]) s = .next s.beginArrival ∧
    (s.line.buffer.length < 2 → ∀ x, x = RxChar.lineBreak ∨ x = RxChar.framingError →
      exec (.lineComplete [x, .char 0x0D, .char 0x0A]) s = .next { s.beginArrival with
        line := { s.line with sent := [], buffer := s.line.buffer ++ [.damaged] } }))

/-- A damaged line, and one whose check fails, is answered NO ? CHECK; a good line without a keyword is answered UNKNOWN with its first word
cut to 16 characters. Nothing else changes (10.2, 10.4; an empty first word is log 52). When a reply has been sent its line leaves the buffer,
and the line behind it moves to the head; a reply that follows EV lines takes the overrun mark then, which is cleared (10.3; log 44). -/
def Obligations.BadLinesAreAnswered : Prop :=
  (∀ (s : State) (r : Reply), s.line.reply = some r →
    (r.events = [] → exec .replyComplete s = .next { s.beginArrival with line := { s.line with
      buffer := s.line.buffer.tail, reply := none, sent := [r.line] } }) ∧
    (r.events ≠ [] → exec .replyComplete s = .next { s.beginArrival with line := { s.line with
      buffer := s.line.buffer.tail, reply := none, overrun := false
      sent := r.events ++ [r.line.take 2 ++ (if s.line.overrun then [fWord "OVERRUN"] else []) ++ r.line.drop 2] } })) ∧
  ∀ (s : State) (l : BufLine) (q : List BufLine), s.line.reply = none → s.line.buffer = l :: q →
    (l.checkFails = true → exec .check s = .next { s.beginArrival with line := { s.line with
        sent := [], overrun := false, reply := some ⟨[], [fWord "NO", fWord "?"] ++ s.mark ++ [fWord "CHECK"]⟩ } }) ∧
    (∀ body, l = .formed body (crc16 body) → classify body = none →
      exec .unknown s = .next { s.beginArrival with line := { s.line with
        sent := [], overrun := false
        reply := some ⟨[], [fWord "NO", f1 (.text ((firstWord body).take 16))] ++ s.mark ++ [fWord "UNKNOWN"]⟩ } })

/-! ### The queries -/

/-- REGIME? reports the regime unit, CHAN? a sense channel record (R25, R47). -/
def Obligations.RegimeAndChanQueriesReport : Prop :=
  (∀ (s : State) (f : List Text), s.takes (.regimeQuery f) = true →
    (f = [] → s.reports (.regimeQuery f) "REGIME"
      ([fNum s.regime.active.number, fNum s.regime.active.format, fFlag s.control.fallback] ++
        (match s.regime.coldResult with
          | .ok => [fWord "OK"]
          | .blank => [fWord "BLANK"]
          | .crc => [fWord "CRC"]
          | .bad name n => [fWord "BAD", fWord name.name, fNum n]) ++
        [fWord s.regime.load.name, fOptNum s.regime.stagedLength, fOptNum s.regime.writtenNumber])) ∧
    (f ≠ [] → s.refuses (.regimeQuery f) "FIELD" [fNum 1])) ∧
  (∀ (s : State) (f : List Text), s.takes (.chanQuery f) = true →
    (∀ n c, fields1 (number 1 24) f = .ok n → s.chan n = some c →
      s.reports (.chanQuery f) "CHAN" ([fNum n,
        fFlag (s.regime.active.used n), fOptNum (s.regime.active.channel n).zone,
        (match c.band with
          | none => fWord "UNSETTLED"
          | some b => fWord b.name),
        (match c.candidate with
          | none => fNone
          | some k => fWord k.1.name),
        fWord (if c.driven then "DRIVEN" else "UNDRIVEN")] ++
        (match c.binding with
          | .unbound => [fNone, fNone, fOptNum (s.sense.place n)]
          | .waiting => [fWord "WAITING", fNone, fOptNum (s.sense.place n)]
          | .bound m .cadence => [fNum m, fWord "CADENCE", fOptNum (s.sense.place n)]
          | .bound m .spot => [fNum m, fWord "SPOT", fOptNum (s.sense.place n)]) ++
        (match c.lock with
          | .unlocked => [fWord "UNLOCKED", fNone]
          | .locked p => [fWord "LOCKED", fNum p]
          | .steady => [fWord "STEADY", fNone]) ++
        [fOptNum c.lastPeriod, fOptNum c.lastOnTime, fWord c.signal.name, fFlag c.changed] ++
        (match c.spot with
          | none => [fNone, fNone, fNone]
          | some ⟨some o⟩ => [fWord "DONE", fNum o, fFlag false]
          | some ⟨none⟩ => [fWord "ABORTED", fNone, fFlag true]))) ∧
    (∀ k, fields1 (number 1 24) f = .error k → s.refuses (.chanQuery f) "FIELD" [fNum k]))

/-- ZONE?, INCIDENTS and INCIDENT? report the zone record, the incident table with the building demand, and one incident (R56, R68, R69). -/
def Obligations.FireQueriesReport : Prop :=
  ∀ (s : State) (f : List Text),
    (s.takes (.zoneQuery f) = true →
      (∀ k, fields1 (number 1 64) f = .error k → s.refuses (.zoneQuery f) "FIELD" [fNum k]) ∧
      (∀ z, fields1 (number 1 64) f = .ok z →
        (s.zone z = none → s.refuses (.zoneQuery f) "NOT-FOUND" []) ∧
        (∀ r e, s.zone z = some r → s.regime.active.zone z = some e →
          s.reports (.zoneQuery f) "ZONE" [fNum z, fWord r.state.name, fWord r.signal.name, fFlag r.lineFault,
            (match r.level with
              | some l => fWord l.name
              | none => fNone),
            fOptTime r.confirm, fOptNum r.incident, fTime r.enteredAt, fNum e.group, listField e.floors]))) ∧
    (s.takes (.incidents f) = true →
      (f ≠ [] → s.refuses (.incidents f) "FIELD" [fNum 1]) ∧
      (f = [] → s.reports (.incidents f) "INCIDENTS" (fNum s.fire.incidents.length ::
        s.fire.incidents.map (fun i => [[.num i.id], [i.origin.atom], [.word i.state.name], [.word i.severity.name],
          [.num i.members.length]]) ++
        [listField s.fire.demand.recallGroups, fWord s.fire.demand.stairA.name, fWord s.fire.demand.stairB.name,
          fWord s.fire.demand.stairC.name]))) ∧
    (s.takes (.incidentQuery f) = true →
      (∀ k, incidentFields f = .error k → s.refuses (.incidentQuery f) "FIELD" [fNum k]) ∧
      (∀ id start, incidentFields f = .ok (id, start) →
        (s.incident id = none → s.refuses (.incidentQuery f) "NOT-FOUND" []) ∧
        (∀ i, s.incident id = some i →
          s.reports (.incidentQuery f) "INCIDENT" ([fNum id, f1 i.origin.atom, fWord i.state.name, fWord i.severity.name,
            fTime i.openedAt, fOptTime i.acceptedAt, fOptTime i.escalation, fNum i.members.length,
            fSet (i.fireFloors s.regime.active)] ++
            ((i.members.drop (start - 1)).take 8).map fun m =>
              [[.num m.zone], [.time m.joinedAt], [if m.merged then .word "M" else .hyphen]]))))

/-- GUARD? and CAR? report a floor's marks with its landings, and a car record (R84, R102). -/
def Obligations.LiftQueriesReport : Prop :=
  ∀ (s : State) (f : List Text),
    (s.takes (.guardQuery f) = true →
      (∀ k, fields1 (number 0 63) f = .error k → s.refuses (.guardQuery f) "FIELD" [fNum k]) ∧
      (∀ n, fields1 (number 0 63) f = .ok n →
        (s.regime.active.floor n = none → s.refuses (.guardQuery f) "NOT-FOUND" []) ∧
        (∀ fl, s.regime.active.floor n = some fl →
          s.reports (.guardQuery f) "GUARD" [fNum n, fFlag (s.lift.guard n).incident, fFlag (s.lift.guard n).host,
            fFlag (s.lift.guard n).watch, fOptNum (fl.landing 1), fOptNum (fl.landing 2)]))) ∧
    (s.takes (.carQuery f) = true →
      (∀ k, fields1 (number 1 6) f = .error k → s.refuses (.carQuery f) "FIELD" [fNum k]) ∧
      (∀ n, fields1 (number 1 6) f = .ok n →
        (s.car n = none → s.refuses (.carQuery f) "NOT-FOUND" []) ∧
        (∀ c, s.car n = some c →
          s.reports (.carQuery f) "CAR" ([fNum n, fNum (s.carGroup n), fWord (if c.linkUp then "UP" else "LOST"),
            fWord c.service.name] ++
            (match c.report with
              | none => [fNone, fNone, fNone, fNone, fNone]
              | some r => [(match r.landing with
                  | none => fWord "BETWEEN"
                  | some l => fNum l),
                  fWord (motionName r.motion), fWord (doorsName r.doors), fFlag r.inService, fWord (crewKeyName r.key)]) ++
            [fOptNum c.lastLanding, fOptNum c.target,
              (match c.phase with
                | none => fNone
                | some p => fWord p.name),
              fOptTime c.phaseDeadline, listField c.calls, fFlag c.keyIgnored] ++
            (match c.lastAbort with
              | none => [fNone, fNone, fNone, fNone]
              | some a => [fWord a.code.name, fOptNum a.reason, fOptNum a.landing, fTime a.time])))))

/-- DOOR? and STAIR? report a door point record and the counts of a stair (R120, R121). -/
def Obligations.DoorQueriesReport : Prop :=
  ∀ (s : State) (f : List Text),
    (s.takes (.doorQuery f) = true →
      (∀ k, fields1 (number 1 96) f = .error k → s.refuses (.doorQuery f) "FIELD" [fNum k]) ∧
      (∀ d, fields1 (number 1 96) f = .ok d →
        (s.point d = none → s.refuses (.doorQuery f) "NOT-FOUND" []) ∧
        (∀ p e x, s.point d = some p → s.regime.active.door d = some e → at1 s.door.expanders (expanderOf d) = some x →
          s.reports (.doorQuery f) "DOOR" [fNum d, fWord e.stair.name, fOptNum e.floor, fFlag e.reentry,
            fNum ((d + 7) / 8), fWord (if x.up then "UP" else "LOST"), fWord p.state.name, fWord p.command.name,
            readingField "BONDED" "UNBONDED" p.bonded, readingField "CLOSED" "OPEN" p.closed, fFlag p.hostRelease,
            fFlag (s.releaseDemand d), fOptNum (s.relockPlace d), fOptTime p.openSince, fFlag p.heldFlag]))) ∧
    (s.takes (.stairQuery f) = true →
      (∀ k, fields1 stairWord f = .error k → s.refuses (.stairQuery f) "FIELD" [fNum k]) ∧
      (∀ st, fields1 stairWord f = .ok st →
        s.reports (.stairQuery f) "STAIR" [fWord st.name, fWord (s.fire.demand.stair st).name,
          fNum (s.stairPoints st).length, fNum ((s.stairPoints st).filter s.hostReleased).length,
          [DoorState.secure, .forced, .released, .faultRelease, .closeWait, .relockWait, .locking, .faultLock, .noScan].map
            fun ds => [.num ((s.stairPoints st).filter (s.inDoorState ds)).length],
          fNum s.door.queue.length]))

/-- AZONE?, PROG?, TENANT? and LIVE? report an audio zone record, a programme record, the tenant queue and the live record (R136, R137, R145,
R156). -/
def Obligations.AudioQueriesReport : Prop :=
  (∀ (s : State) (f : List Text),
    (s.takes (.azoneQuery f) = true →
      (∀ k, fields1 (number 1 48) f = .error k → s.refuses (.azoneQuery f) "FIELD" [fNum k]) ∧
      (∀ a z, fields1 (number 1 48) f = .ok a → at1 s.ann.zones a = some z →
        (s.regime.active.azonePresent a = false →
          s.reports (.azoneQuery f) "AZONE" ([fNum a, fFlag false] ++ List.replicate 8 fNone)) ∧
        (s.regime.active.azonePresent a = true → ∃ floor : Field,
          ((∃ n fl, s.regime.active.floor n = some fl ∧ fl.audioZone = some a ∧ floor = fNum n) ∨
            ((∀ n fl, s.regime.active.floor n = some fl → fl.audioZone ≠ some a) ∧ floor = fWord "REST")) ∧
          s.reports (.azoneQuery f) "AZONE" [fNum a, fFlag true, floor,
            fWord ((at1 s.fire.demand.claims a).getD .none).name,
            wordsField (([Prog.live, .evac, .alert, .tenant].filter fun p => (s.prog p).claims.contains a).map progName),
            progField z.holder,
            (match z.holder with
              | some p => fWord (s.prog p).state.name
              | none => fNone),
            progField z.previous, fFlag z.preempted, fTime z.heldSince]))) ∧
    (s.takes (.progQuery f) = true →
      (∀ k, fields1 progWord f = .error k → s.refuses (.progQuery f) "FIELD" [fNum k]) ∧
      (∀ p, fields1 progWord f = .ok p →
        s.reports (.progQuery f) "PROG" ([fWord (progName p), fWord (s.prog p).state.name, fNum (s.prog p).claims.length,
          fSet (s.prog p).claims, fOptNum (s.prog p).step,
          (match (s.prog p).step.bind fun n => (s.scriptOf p).steps[n - 1]? with
            | none => fNone
            | some st => fWord st.kindName),
          fOptNum (s.prog p).pass,
          (if (s.prog p).pass.isSome then fNum (s.scriptOf p).repeats else fNone),
          fOptTime (s.prog p).stepAt] ++
          (match (s.prog p).read with
            | none => [fNone, fNone]
            | some (.waiting c _) => [fWord "WAITING", fNum c]
            | some (.streaming c _ _ _) => [fWord "STREAMING", fNum c]
            | some (.substituted c _) => [fWord "SUBSTITUTED", fNum c]) ++
          [listField (s.prog p).missing]))) ∧
    (s.takes (.tenantQuery f) = true →
      (∀ k, fieldsOpt (number 1 255) f = .error k → s.refuses (.tenantQuery f) "FIELD" [fNum k]) ∧
      (fieldsOpt (number 1 255) f = .ok none →
        s.reports (.tenantQuery f) "TENANT" [fFlag s.fire.demand.tenantStop, fOptNum (s.ann.playing.map Announcement.ticket),
          fOptNum s.ann.tenant.step, fOptNum s.ann.tenant.pass, fNum s.ann.queue.length,
          listField (s.ann.queue.map Announcement.ticket), fNum s.ann.nextTicket]) ∧
      (∀ t, fieldsOpt (number 1 255) f = .ok (some t) →
        (s.ann.find t = none → s.refuses (.tenantQuery f) "NOT-FOUND" []) ∧
        (∀ a k, s.ann.find t = some (a, k) →
          s.reports (.tenantQuery f) "TENANT" ([fNum a.ticket, fNum k, fSet a.zones, fNum a.script.repeats,
            fNum a.script.steps.length] ++ a.script.steps.map Step.field ++ [fTime a.enteredAt, fOptTime a.startedAt]))))) ∧
  (∀ (s : State) (f : List Text), s.takes (.liveQuery f) = true →
    (f ≠ [] → s.refuses (.liveQuery f) "FIELD" [fNum 1]) ∧
    (f = [] → s.reports (.liveQuery f) "LIVE" [fWord s.live.state.name,
      (match s.live.zones with
        | none => fNone
        | some zs => fSet zs),
      (match s.live.zones with
        | none => fNum 0
        | some zs => fNum (s.regime.active.presentAzones zs).length),
      fNum s.live.fifo.length, fOptTime s.live.startedAt, fNum s.live.resyncs,
        (match s.live.history with
          | [] => fNone
          | ts => [ts.map Atom.time]),
        fWord (if s.regime.active.options.liveKill then "ON" else "OFF")]))

/-- STORE? and CLIPS report the store engine, a bank's blocks and the clip directory (R176, R177). -/
def Obligations.StoreQueriesReport : Prop :=
  ∀ (s : State) (f : List Text),
    (s.takes (.storeQuery f) = true →
      (∀ k, fieldsOpt (number 1 2) f = .error k → s.refuses (.storeQuery f) "FIELD" [fNum k]) ∧
      (fieldsOpt (number 1 2) f = .ok none →
        s.reports (.storeQuery f) "STORE" (
          (match s.store.engine with
            | .ready => [fWord "READY", fNone, fNone, fNone, fNone, fNone]
            | .erasing j => [fWord "ERASING", [[.num j.bank], [.num j.block]], fNone, fTime j.startedAt, fNone, fNum j.reads]
            | .suspended j cause _ => [fWord "ERASE-SUSPENDED", [[.num j.bank], [.num j.block]], fNone, fTime j.startedAt,
                fWord cause.name, fNum j.reads]
            | .writing (.data bank block _ _) =>
              [fWord "WRITING", [[.num bank], [.num block]], fWord "DATA", fNone, fNone, fNone]
            | .writing (.header e) => [fWord "WRITING", [[.num e.bank], [.num e.first]], fWord "HEADER", fNone, fNone, fNone]
            | .writing .regime => [fWord "WRITING", fWord "REGIME", fWord "REGIME", fNone, fNone, fNone]) ++
          [fFlag s.store.permit, s.store.lastError.field, fNum s.store.directory.length,
            fNum (s.store.reads.filter fun r => r.bank == 1).length,
            fNum (s.store.reads.filter fun r => r.bank == 2).length])) ∧
      (∀ b, fieldsOpt (number 1 2) f = .ok (some b) →
        s.reports (.storeQuery f) "STORE" (fNum b :: (span 1 16).map fun k =>
          [[.word (if s.store.locked b k then "L" else "U")], [.word (if s.store.sound b k then "S" else "X")],
            [match s.store.directory.find? fun e => e.touches b k with
              | none => .hyphen
              | some e => .num e.id]]))) ∧
    (s.takes (.clips f) = true →
      (∀ k, fieldsOpt (number 1 127) f = .error k → s.refuses (.clips f) "FIELD" [fNum k]) ∧
      (∀ o, fieldsOpt (number 1 127) f = .ok o →
        s.reports (.clips f) "CLIPS" (fNum s.store.directory.length ::
          ((s.store.directory.filter fun e => decide (o.getD 1 ≤ e.id)).take 8).map fun e =>
            [[.num e.id], [.num e.bank], [.num e.first], [.num (clipBlocks e.length)], [.num e.length],
              [.hex 8 e.crc.toNat]])))

/-- TROUBLES, HELLO and MODE? report the trouble list, the part's identity and the mode record (R186, R192, R193). -/
def Obligations.StatusQueriesReport : Prop :=
  ∀ (s : State) (f : List Text),
    (s.takes (.troubles f) = true →
      (∀ k, fieldsOpt (number 1 192) f = .error k → s.refuses (.troubles f) "FIELD" [fNum k]) ∧
      (∀ o, fieldsOpt (number 1 192) f = .ok o →
        s.reports (.troubles f) "TROUBLES" (fNum s.event.troubles.length ::
          ((s.event.troubles.drop (o.getD 1 - 1)).take 16).map fun t =>
            match t.shown with
            | none => t.source.field
            | some k => t.source.field ++ [[.word k.kind.name], [.num k.cls.num], [.time k.time], [.num t.kinds.length]] ++
              (match k.detail with
                | none => []
                | some d => [d])))) ∧
    (s.takes (.hello f) = true →
      (f ≠ [] → s.refuses (.hello f) "FIELD" [fNum 1]) ∧
      (f = [] → s.reports (.hello f) "HELLO" ([fWord "HASJOR", fWord "HJ-640", fNum 1, fNum s.regime.active.number,
        fFlag s.control.fallback, fWord s.control.mode.name] ++
        (match s.regime.coldResult with
          | .ok => [fWord "OK"]
          | .blank => [fWord "BLANK"]
          | .crc => [fWord "CRC"]
          | .bad name n => [fWord "BAD", fWord name.name, fNum n])))) ∧
    (s.takes (.modeQuery f) = true →
      (f ≠ [] → s.refuses (.modeQuery f) "FIELD" [fNum 1]) ∧
      (f = [] → s.reports (.modeQuery f) "MODE" [fWord s.control.mode.name, fFlag s.control.fallback, fTime s.control.uptime,
        (if s.control.mode = .starting then fFlag s.control.settle.isNone else fNone),
        (if s.control.mode = .starting then fNum s.unsettled else fNone),
        fNum s.fire.incidents.length, fNum s.event.queue.length, fFlag s.event.gap, fNum s.event.troubles.length]))

/-! ### Events, troubles, modes, line restart -/

/-- A record joins after every record of its own or a lower class; a full queue first loses the oldest record of the highest class above the
newcomer's, or else the newcomer, and the gap flag is set (9.2). -/
def Obligations.EventQueueOrderAndDisplacement : Prop :=
  ∀ (u : EventUnit) (e : Event), classSorted u.queue = true →
    (u.queue.length < 64 → u.take e = { u with
      queue := u.queue.filter (fun x => decide (x.cls.num ≤ e.cls.num)) ++ e ::
        u.queue.filter (fun x => !decide (x.cls.num ≤ e.cls.num)) }) ∧
    (u.queue.length = 64 → (∀ x ∈ u.queue, x.cls.num ≤ e.cls.num) → u.take e = { u with gap := true }) ∧
    (u.queue.length = 64 → ∀ c : EventClass, e.cls.num < c.num → (∃ x ∈ u.queue, x.cls = c) →
      (∀ x ∈ u.queue, x.cls.num ≤ c.num) →
      u.take e = { u with
        queue := (u.queue.eraseP fun x => x.cls == c).filter (fun x => decide (x.cls.num ≤ e.cls.num)) ++ e ::
          (u.queue.eraseP fun x => x.cls == c).filter (fun x => !decide (x.cls.num ≤ e.cls.num))
        gap := true })

/-- ATTN is asserted exactly while the queue holds a record; a displacement does not move it; a pending gap flag alone does not assert it. EVENTS
delivers up to n records from the head, the first with the gap flag, then its reply with their number; its count is 1 to 8 (9.2). The overrun mark
goes into that reply as it completes where EV lines are sent before it (log 44). -/
def Obligations.EventsDeliverAndAttnFollows : Prop :=
  ((∀ s : State, s.attn = true ↔ s.event.queue ≠ []) ∧
  (∀ (s : State) cls kind src fs, (s.raiseAs cls kind src fs).attn = true) ∧
  (∀ (s : State) cls kind src fs, s.event.queue.length = 64 → (s.raiseAs cls kind src fs).event.queue.length = 64) ∧
  (∀ (s : State) n, s.event.queue.length ≤ n → (s.deliver n).attn = false)) ∧
  (∀ (s : State) (f : List Text), s.takes (.events f) = true →
    (∀ k, fields1 (number 1 8) f = .error k → s.refuses (.events f) "FIELD" [fNum k]) ∧
    (∀ n, fields1 (number 1 8) f = .ok n →
      let out := s.event.queue.take n
      exec (.events f) s = .next { s with
        line := s.lineWith "EVENTS" f
          { events := out.mapIdx fun i e =>
              [fWord "EV", fNum e.cls.num, fWord e.kind.name, fTime e.time, e.source.field,
                if i = 0 ∧ s.event.gap = true then fWord "G" else fNone] ++ e.fields
            line := if out = [] then s.okLine "EVENTS" [fNum 0] else [fWord "OK", fWord "EVENTS", fNum out.length] }
        lift := { s.lift with sent := [] }
        event := { s.event with queue := s.event.queue.drop n, gap := s.event.gap && out.isEmpty } }))

/-- A kind entered for a source it does not stand for is added with its class, detail and uptime and raises TROUBLE-ON; one that stands has its
detail replaced and raises nothing. A standing kind that is resolved leaves and raises TROUBLE-OFF in the class it held; one that does not stand
changes nothing (9.3). -/
def Obligations.TroubleEntryAndResolution : Prop :=
  (∀ (s : State) (src : Source) (kind : TroubleKind) (d : Option (List Atom)),
    (s.event.stands src kind = false →
      let cls := kind.cls (!s.fire.incidents.isEmpty)
      let ks := s.event.standing src ++ [⟨kind, cls, d, s.now⟩]
      let detail : Field := match d with
        | none => fNone
        | some as => [as]
      let u : EventUnit := { s.event with troubles := putStanding src ks s.event.troubles }
      s.enterTrouble src kind d = { s with event := u.take ⟨cls, .troubleOn, s.now, src, [fWord kind.name, detail]⟩ } ∧
      (s.enterTrouble src kind d).event.standing src = ks) ∧
    (s.event.stands src kind = true →
      (s.enterTrouble src kind d).event.queue = s.event.queue ∧ (s.enterTrouble src kind d).event.gap = s.event.gap ∧
      (s.enterTrouble src kind d).event.standing src =
        (s.event.standing src).map fun k => if k.kind = kind then { k with detail := d } else k)) ∧
  (∀ (s : State) (src : Source) (kind : TroubleKind),
    (s.event.stands src kind = false → s.resolveTrouble src kind = s) ∧
    (∀ k, (s.event.standing src).find? (fun x => x.kind == kind) = some k →
      let ks := (s.event.standing src).filter fun x => x.kind != kind
      let u : EventUnit := { s.event with troubles := putStanding src ks s.event.troubles }
      s.resolveTrouble src kind = { s with event := u.take ⟨k.cls, .troubleOff, s.now, src, [fWord kind.name]⟩ } ∧
      (s.resolveTrouble src kind).event.stands src kind = false))

/-- MAINT ON and MAINT OFF (9.5): their refusals, the change of mode with its event, and on leaving MAINTENANCE the permit and a load in
RECEIVING given up. -/
def Obligations.MaintenanceRequests : Prop :=
  ∀ (s : State) (f : List Text), f = [] →
    (s.takes (.maintOn f) = true →
      (s.incidentOpen = true → s.refuses (.maintOn f) "INCIDENT" []) ∧
      (s.incidentOpen = false → s.control.mode = .starting → s.refuses (.maintOn f) "STATE" []) ∧
      (s.incidentOpen = false → s.control.mode = .maintenance → s.reports (.maintOn f) "MAINT ON" []) ∧
      (s.incidentOpen = false → s.control.mode = .normal →
        exec (.maintOn f) s = .next { s.answered "MAINT ON" f (s.okLine "MAINT ON" []) with
          control := { s.control with mode := .maintenance }
          event := s.event.take ⟨.status, .modeChanged, s.now, .control, [fWord "MAINTENANCE"]⟩ })) ∧
    (s.takes (.maintOff f) = true →
      (s.control.mode = .starting → s.refuses (.maintOff f) "STATE" []) ∧
      (s.control.mode = .normal → s.reports (.maintOff f) "MAINT OFF" []) ∧
      (s.control.mode = .maintenance →
        exec (.maintOff f) s = .next { s.answered "MAINT OFF" f (s.okLine "MAINT OFF" []) with
          control := { s.control with mode := .normal }
          regime := if s.regime.load = .receiving then { s.regime with load := .idle, staging := [], stagedLength := none }
            else s.regime
          store := { s.store with permit := false }
          event := s.event.take ⟨.status, .modeChanged, s.now, .control, [fWord "NORMAL"]⟩ }))

/-- RESTART sends its reply, empties the buffer, the event queue and the latch, sets the gap flag, ends the tenant announcements and the live page,
and leaves MAINTENANCE; the events of those steps alone stand in the queue, the trouble list loses LIVE-KILLED alone, and the building is kept
(9.7; the reply within the arrival is log 18). -/
def Obligations.LineRestartKeepsTheBuilding : Prop :=
  ∀ (s : State) (f : List Text), f = [] → s.takes (.restart f) = true → s.ann.live.read = none →
    ∃ t, exec (.restart f) s = .next t ∧
    t.line = { s.line with buffer := [], overrun := false, reply := none, sent := [s.okLine "RESTART" []] } ∧
    t.lift = { s.lift with latch := none, sent := [] } ∧
    (let event (kind : EventKind) (src : Source) (fields : List Field) : Event := ⟨.status, kind, s.now, src, fields⟩
     let resumed := match s.store.engine, t.store.engine with
       | .suspended job _ _, .erasing _ => [event .eraseResumed .store [fNum job.bank, fNum job.block]]
       | _, _ => []
     let tenants := (s.ann.playing.toList ++ s.ann.queue).map fun a => event .tenantDone (.ticket a.ticket) [fWord "CANCELLED"]
     let killed := ((s.event.standing .live).filter fun _ => s.live.state != .off).find? fun k => k.kind == .liveKilled
     let off := killed.toList.map fun k => (⟨k.cls, .troubleOff, s.now, .live, [fWord "LIVE-KILLED"]⟩ : Event)
     let live := if s.live.state = .off then [] else [event .liveState .live [fWord "OFF", fNone]]
     let mode := if s.control.mode = .maintenance then [event .modeChanged .control [fWord "NORMAL"]] else []
     t.event = (resumed ++ tenants ++ off ++ live ++ mode).foldl EventUnit.take
       { queue := [], gap := true
         troubles := if killed.isSome then
             putStanding .live ((s.event.standing .live).filter fun k => k.kind != .liveKilled) s.event.troubles
           else s.event.troubles }) ∧
    t.ann.playing = none ∧ t.ann.queue = [] ∧ t.ann.nextTicket = s.ann.nextTicket ∧
    t.ann.evac = s.ann.evac ∧ t.ann.alert = s.ann.alert ∧
    (s.ann.playing ≠ none → t.ann.tenant.state = .idle ∧ t.ann.tenant.claims = []) ∧
    (s.live.state ≠ .off → t.ann.live.state = .idle ∧ t.ann.live.claims = []) ∧
    (∀ a z, at1 t.ann.zones a = some z → z.holder = t.rightHolder a) ∧
    (s.live.state ≠ .off → t.live = { LivePage.cold with gathering := s.live.gathering }) ∧
    (s.live.state = .off → t.live = s.live) ∧
    t.control = { s.control with mode := if s.control.mode = .maintenance then .normal else s.control.mode } ∧
    t.regime = (if s.control.mode = .maintenance then s.regime.abandon else s.regime) ∧
    t.sense = s.sense ∧ t.fire = s.fire ∧ t.door = s.door ∧
    t.store.blocks = s.store.blocks ∧ t.store.bytes = s.store.bytes ∧ t.store.directory = s.store.directory ∧
    (s.control.mode = .maintenance → t.store.permit = false)

/-- STARTING ends at the later of the settle deadline and the banding of the last used channel: the mode becomes NORMAL, STARTED is raised, and
every door point no longer demanded joins the re-lock queue or waits for its door to close (9.6, 5.3). -/
def Obligations.StartingEndsWhenSettledAndBanded : Prop :=
  ∀ s : State, s.control.mode = .starting →
    let ended (t : State) : Prop :=
      t.control = { s.control with mode := .normal, settle := none } ∧
      s.raises t ⟨.status, .started, s.now, .control, [fNum s.regime.active.number, fFlag s.control.fallback]⟩ ∧
      (∀ d, (t.point d).isSome = (s.point d).isSome) ∧
      (∀ d p, 1 ≤ d → d ≤ 96 → s.point d = some p →
        (p.hostRelease = true ∨ s.covered d = true ∨ (p.state ≠ .released ∧ p.state ≠ .faultRelease) → t.point d = some p) ∧
        (p.hostRelease = false → s.covered d = false → p.state = .released ∨ p.state = .faultRelease →
          t.point d = some { p with check := none, state := if p.closed = some true then .relockWait else .closeWait } ∧
          (p.closed = some true → d ∈ t.door.queue) ∧ t.event.stands (.door d) .doorFaultRelease = false))
    (due s.now s.control.settle = true → s.unsettled ≠ 0 →
      exec .startUpSettleDeadline s = .next { s.beginArrival with control := { s.control with settle := none } }) ∧
    (due s.now s.control.settle = true → s.unsettled = 0 → ∃ t, exec .startUpSettleDeadline s = .next t ∧ ended t ∧
      t.sense = s.sense ∧ t.fire = s.fire ∧ t.lift = { s.lift with sent := [] } ∧ t.regime = s.regime ∧
      t.ann = s.ann ∧ t.live = s.live ∧ t.store = s.store) ∧
    (∀ n c cl t0, s.control.settle = none → s.chan n = some c → c.band = none → c.candidate = some (cl, t0) → t0 + 200 ≤ s.now →
      s.regime.active.used n = true → s.unsettled = 1 → ∃ t, exec (.bandAdoption n) s = .next t ∧ ended t)

/-! ### The regime load -/

/-- Every regime request but REGIME? passes three gates in order once its fields are good: no open incident, MAINTENANCE, a load state that admits
it; a refusal changes neither the load state nor the staging area. REGIME BEGIN opens a load with the staging area cleared. REGIME DATA lays its
bytes at its offset and no other staged byte changes; a record beyond a staged length that is present fails field 1 before any gate (1.9, 10.5;
the place of that judgement among the fields is log 34). -/
def Obligations.RegimeGatesAndStaging : Prop :=
  (∀ (s : State) (c : Instr) (admitted : List LoadState),
    ((∃ f n, c = .regimeBegin f ∧ fields1 (number 88 16384) f = .ok n ∧
        admitted = [.idle, .receiving, .written, .writeFailed]) ∨
      (∃ f a, c = .regimeData f ∧ dataFields s.regime f = .ok a ∧ admitted = [.receiving]) ∨
      (∃ f a, c = .regimeEnd f ∧ fields1 checkValue f = .ok a ∧ admitted = [.receiving]) ∨
      (c = .regimeActivate [] ∧ admitted = [.written])) → s.takes c = true →
    (s.incidentOpen = true → s.refuses c "INCIDENT" []) ∧
    (s.incidentOpen = false → s.control.mode ≠ .maintenance → s.refuses c "NOT-MAINTENANCE" []) ∧
    (s.incidentOpen = false → s.control.mode = .maintenance → s.regime.load ∉ admitted → s.refuses c "STATE" [])) ∧
  (∀ (s : State) (f : List Text), s.takes (.regimeBegin f) = true →
    (∀ k, fields1 (number 88 16384) f = .error k → s.refuses (.regimeBegin f) "FIELD" [fNum k]) ∧
    (∀ n, fields1 (number 88 16384) f = .ok n → s.incidentOpen = false → s.control.mode = .maintenance → s.regime.load ≠ .writing →
      exec (.regimeBegin f) s = .next { s.answered "REGIME BEGIN" f (s.okLine "REGIME BEGIN" [fNum n]) with
        regime := { s.regime with load := .receiving, staging := [], stagedLength := some n, writtenNumber := none
                                  writeStarted := none } })) ∧
  (∀ (s : State) (f : List Text), s.takes (.regimeData f) = true →
    (∀ k, dataFields s.regime f = .error k → s.refuses (.regimeData f) "FIELD" [fNum k]) ∧
    (∀ off bs len, field 1 decimal f = .ok off → field 2 (hexData 1 128) f = .ok bs → s.regime.stagedLength = some len →
      len < off + bs.length → s.refuses (.regimeData f) "FIELD" [fNum 1]) ∧
    (∀ off bs len, fields2 decimal (hexData 1 128) f = .ok (off, bs) → s.regime.stagedLength = some len → off + bs.length ≤ len →
      s.incidentOpen = false → s.control.mode = .maintenance → s.regime.load = .receiving → s.regime.staging.wf stagedByte = true →
      ∃ m : Mem,
        exec (.regimeData f) s = .next { s.answered "REGIME DATA" f (s.okLine "REGIME DATA" [fNum off, fNum bs.length]) with
          regime := { s.regime with staging := m } } ∧
        (∀ i, i < bs.length → m.read stagedByte (off + i) = bs.getD i 0) ∧
        (∀ a, (a < off ∨ off + bs.length ≤ a) → m.read stagedByte a = s.regime.staging.read stagedByte a)))

/-- REGIME END: BUSY keeps the load; a wrong CRC or header discards it; a good image starts the regime write (1.9). -/
def Obligations.RegimeEndDecidesTheWrite : Prop :=
  ∀ (s : State) (f : List Text) (crc : Crc32), s.takes (.regimeEnd f) = true → fields1 checkValue f = .ok crc →
    s.incidentOpen = false → s.control.mode = .maintenance → s.regime.load = .receiving →
    let img := s.regime.staging.slice stagedByte 0 (s.regime.stagedLength.getD 0)
    let dropped := { s.regime with load := .idle, staging := [], stagedLength := none, writtenNumber := none, writeStarted := none }
    let crcGood := crc32 (img.take 8 ++ [0, 0, 0, 0] ++ img.drop 12) = crc ∧ BitVec.ofNat 32 (wordAt img 8) = crc
    let headGood := halfAt img 0 = 1 ∧ wordAt img 4 = s.regime.stagedLength.getD 0
    (s.store.engine ≠ .ready → s.refuses (.regimeEnd f) "BUSY" []) ∧
    (s.store.engine = .ready → ¬crcGood → exec (.regimeEnd f) s = .next
      { s.answered "REGIME END" f (s.noLine "REGIME END" "CRC" []) with regime := dropped }) ∧
    (s.store.engine = .ready → crcGood → ¬headGood → exec (.regimeEnd f) s = .next
      { s.answered "REGIME END" f (s.noLine "REGIME END" "BAD" [fWord "HEADER", fNum 0]) with regime := dropped }) ∧
    (s.store.engine = .ready → crcGood → headGood → exec (.regimeEnd f) s = .next
      { s.answered "REGIME END" f (s.okLine "REGIME END" [f1 (.hex 8 crc.toNat)]) with
        regime := { s.regime with load := .writing, writeStarted := some s.now, torn := true }
        store := { s.store with engine := .writing .regime } })

/-- A good regime write puts the staged image, and nothing else, into the regime area, reports it and resolves REGIME-WRITE-FAILED; a failed one
leaves the area torn, so that the next cold start finds no image there (log 7), and enters REGIME-WRITE-FAILED. Either frees the engine (1.9; the
least time is log 16). While the write runs the area is torn: EveryStepKeepsTheMeterLiftAndStoreLaws. -/
def Obligations.RegimeWriteEnds : Prop :=
  ∀ s : State, s.store.engine = .writing .regime → s.regime.torn = true →
    (∀ t0, s.regime.writeStarted = some t0 → t0 + 1500 ≤ s.now →
      let img := s.regime.staging.slice stagedByte 0 (s.regime.stagedLength.getD 0)
      ∃ t, exec (.regimeWriteEnd true) s = .next t ∧
        (∀ a, t.regime.area.read erasedByte a = if a < img.length then img.getD a 0 else 0xFF) ∧
        t.regime = { s.regime with area := t.regime.area, torn := false, load := .written, staging := [], stagedLength := none
                                   writtenNumber := some (halfAt img 2), writeStarted := none } ∧
        t.store = { s.store with engine := .ready } ∧
        s.raises t ⟨.status, .regimeWritten, s.now, .regime, [fNum (halfAt img 2)]⟩ ∧
        t.event.stands .regime .regimeWriteFailed = false ∧
        t = { s.beginArrival with regime := t.regime, store := t.store, event := t.event }) ∧
    (∃ t, exec (.regimeWriteEnd false) s = .next t ∧
      t.regime = { s.regime with torn := true, load := .writeFailed, staging := [], stagedLength := none, writtenNumber := none
                                 writeStarted := none } ∧
      t.store = { s.store with engine := .ready } ∧ t.event.stands .regime .regimeWriteFailed = true ∧
      t = { s.beginArrival with regime := t.regime, store := t.store, event := t.event })

/-- REGIME ACTIVATE: an image that fails its CRC or a check is refused, its load is over and REGIME-WRITE-FAILED stands; a good one becomes the
active regime, clears the fallback flag and its trouble, clears the guard table, keeps each channel's measurements, hands each zone the signal and
the line fault of its new channels, and gives the live page and the audio zones their claims and holders on the new audio zones (1.10). A kept car
leaves CREW if its group changed; a dropped one is released from it; a new one is TENANT with its link LOST. A kept door point keeps its record, an
open door timed against the new limit; a dropped one leaves the re-lock queue and its output is RELEASE; a new one waits for its door (cars and doors
are stated for an activation that opens no incident: a zone that alarms in it has a demand of its own taken after). -/
def Obligations.RegimeActivateTakesTheImage : Prop :=
  ∀ s : State, s.takes (.regimeActivate []) = true → s.incidentOpen = false → s.control.mode = .maintenance →
    s.regime.load = .written →
    let ended := { s.regime with load := .idle, staging := [], stagedLength := none, writtenNumber := none, writeStarted := none }
    (areaImage s.regime.area = none → ∃ t, exec (.regimeActivate []) s = .next t ∧ t.regime = ended ∧
      t.event.stands .regime .regimeWriteFailed = true ∧
      t = { s.answered "REGIME ACTIVATE" [] (s.noLine "REGIME ACTIVATE" "CRC" []) with regime := t.regime, event := t.event }) ∧
    (∀ img, areaImage s.regime.area = some img →
      (∀ name n, checkImage img = .error (name, n) → ∃ t, exec (.regimeActivate []) s = .next t ∧ t.regime = ended ∧
        t.event.stands .regime .regimeWriteFailed = true ∧
        t = { s.answered "REGIME ACTIVATE" [] (s.noLine "REGIME ACTIVATE" "BAD" [fWord name.name, fNum n]) with
          regime := t.regime, event := t.event }) ∧
      (∀ r, checkImage img = .ok r → ∃ t, exec (.regimeActivate []) s = .next t ∧ t.regime = { ended with active := r } ∧
        t.control.fallback = false ∧ t.event.stands .regime .regimeFallback = false ∧
        (∀ g ∈ t.lift.guards.toList, g.host = false ∧ g.watch = false) ∧
        (∀ d, (t.point d).isSome = (r.door d).isSome) ∧ (∀ n, (t.car n).isSome = (rec1 r.cars n).isSome) ∧
        (t.fire.incidents = [] → (∀ n, s.carRebound t n) ∧ (∀ d, s.pointRebound t d)) ∧
        (∀ z, (t.zone z).isSome = (r.zone z).isSome) ∧
        (∀ n c, s.chan n = some c → ∃ c', t.chan n = some c' ∧ c'.drive = c.drive ∧ c'.band = c.band ∧ c'.candidate = c.candidate ∧
          c'.driven = c.driven ∧ c'.holdFrom = c.holdFrom ∧ c'.lastPeriod = c.lastPeriod ∧ c'.lastOnTime = c.lastOnTime ∧
          c'.changed = c.changed ∧ c'.spot = c.spot ∧
          (s.regime.active.used n = true → r.used n = false → c'.signal = .none ∧
            ∀ k ∈ [TroubleKind.channelShort, .channelOpen, .cadenceUnknown], t.event.stands (.chan n) k = false)) ∧
        (∀ z x, t.zone z = some x → x.signal = t.zoneSignal z ∧ x.lineFault = t.zoneFault z) ∧
        t.ann.live.claims = (match s.live.state, s.live.zones with
          | .prefill, some zs | .running, some zs => r.presentAzones zs
          | _, _ => []) ∧
        (∀ a z, at1 t.ann.zones a = some z → z.holder = t.rightHolder a) ∧
        t.line = s.lineWith "REGIME ACTIVATE" [] ⟨[], s.okLine "REGIME ACTIVATE" [fNum r.number]⟩ ∧
        t.store.blocks = s.store.blocks ∧ t.store.bytes = s.store.bytes ∧ t.store.directory = s.store.directory))

/-! ### Sense channels -/

/-- Readings of an UNDRIVEN channel are classed at 500 and 25 000 ohms and time the band candidate; read for 200 ms it becomes the band, with
the line troubles of a used channel and the line fault of its zone (2.2, 2.8). The model's choice in it (log 47): a direct change between OPEN and
SHORT leaves the zone's line fault, state and entered-at alone. -/
def Obligations.LineReadingsAndBandAdoption : Prop :=
  ∀ (s : State) (n : Nat) (c : Chan), s.chan n = some c →
    (∀ ohms,
      let cl : LineClass := if ohms < 500 then .shorted else if ohms ≤ 25000 then .normal else .opened
      (c.driven = true → exec (.lineClassChange n ohms) s = .next s) ∧
      (c.driven = false → exec (.lineClassChange n ohms) s = .next (s.beginArrival.setChan n { c with
        candidate := if c.band = some cl then none else if c.candidate.map Prod.fst = some cl then c.candidate
          else some (cl, s.now) }))) ∧
    (∀ cl t, c.candidate = some (cl, t) →
      (s.now < t + 200 → exec (.bandAdoption n) s = .next s) ∧
      (t + 200 ≤ s.now → s.regime.active.used n = false →
        exec (.bandAdoption n) s = .next (s.beginArrival.setChan n { c with band := some cl, candidate := none })) ∧
      (t + 200 ≤ s.now → s.regime.active.used n = true → ∃ u, exec (.bandAdoption n) s = .next u ∧
        u.chan n = some { c with band := some cl, candidate := none } ∧ (∀ k, k ≠ n → u.chan k = s.chan k) ∧
        u.event.stands (.chan n) .channelOpen = decide (cl = .opened) ∧
        u.event.stands (.chan n) .channelShort = decide (cl = .shorted) ∧
        (∀ z r, (s.regime.active.channel n).zone = some z → s.zone z = some r →
          (r.lineFault = u.zoneFault z → u.zone z = some r) ∧
          (r.lineFault ≠ u.zoneFault z → u.zone z = some (match r.state, u.zoneFault z with
            | .normal, true => { r with lineFault := true, state := .trouble, enteredAt := s.now }
            | .trouble, false => { r with lineFault := false, state := .normal, enteredAt := s.now }
            | _, b => { r with lineFault := b }))) ∧
        u.fire.incidents = s.fire.incidents ∧ u.fire.demand = s.fire.demand ∧ u.sense.queue = s.sense.queue ∧
        (u.control.mode ≠ s.control.mode → s.control.mode = .starting ∧ u.control.mode = .normal ∧ u.unsettled = 0) ∧
        u = { s.beginArrival with sense := u.sense, event := u.event, fire := u.fire, control := u.control, door := u.door
                                  ann := u.ann }))

/-- A rising edge on an UNDRIVEN channel: a used one takes the lowest free meter or waits 10 s for one, at EVAC-UNMETERED; a spot measurement
ends ABORTED, and its meter stays with a used channel or is handed on from an unused one (2.3, 2.4, 2.7). -/
def Obligations.RisingEdgeBeginsADrivenSpell : Prop :=
  ∀ (s : State) (n : Nat) (c : Chan), s.chan n = some c → c.drive = false → c.driven = false →
    let c1 : Chan := { c with drive := true, holdFrom := none, driven := true, candidate := none }
    let metered (m : Nat) : Chan := { c1 with
      binding := .bound m .cadence, starve := none, run := [], lastRise := some s.now, steadyFrom := some s.now
      lock := .unlocked, signal := .evacUnmetered }
    let aborted (x : Chan) : Chan := { x with spot := some ⟨none⟩, spotDeadline := none }
    ∃ u, exec (.risingEdge n) s = .next u ∧ u.line = { s.line with sent := [] } ∧ u.live = s.live ∧
      u.regime.active = s.regime.active ∧
      (c.spotting = false → s.regime.active.used n = false → u = (s.beginArrival.setChan n c1).settleHolders) ∧
      (c.spotting = false → s.regime.active.used n = true →
        s.signalHanded u n ∧ (∀ k, k ≠ n → u.chan k = s.chan k) ∧
        (∀ m, s.sense.freeMeter = some m → u.chan n = some (metered m) ∧ u.sense.queue = s.sense.queue) ∧
        (s.sense.freeMeter = none → u.sense.queue = s.sense.queue ++ [n] ∧
          u.chan n = some { c1 with
            binding := .waiting, starve := some (s.now + 10000), run := [], lastRise := none, steadyFrom := none
            lock := .unlocked, signal := .evacUnmetered })) ∧
      (∀ m, c.binding = .bound m .spot →
        s.raises u ⟨.status, .spotDone, s.now, .chan n, [fWord "ABORTED", fNone, fFlag true]⟩ ∧
        (s.regime.active.used n = true →
          s.signalHanded u n ∧ u.chan n = some (aborted (metered m)) ∧ (∀ k, k ≠ n → u.chan k = s.chan k) ∧
          u.sense.queue = s.sense.queue) ∧
        (s.regime.active.used n = false → s.sense.queue = [] →
          u.chan n = some (aborted { c1 with binding := .unbound }) ∧ (∀ k, k ≠ n → u.chan k = s.chan k)) ∧
        (s.regime.active.used n = false → ∀ h q ch, s.sense.queue = h :: q → h ≠ n → s.chan h = some ch →
          u.chan n = some (aborted { c1 with binding := .unbound }) ∧ u.sense.queue = q ∧
          u.chan h = some { ch with
            binding := .bound m .cadence, starve := none, run := [], lastRise := none
            steadyFrom := if ch.drive then some s.now else none } ∧
          u.event.stands (.chan h) .meterStarved = false ∧ (∀ k, k ≠ n → k ≠ h → u.chan k = s.chan k)))

/-- A rising edge on a DRIVEN channel removes the hold. A CADENCE meter that has seen an edge measures the period: UNLOCKED, three periods
that agree with their mean lock it and class it by its windows, the evac window first; LOCKED, a period that departs is a change and the
signal is held, its event carrying the period. A measured time outside 1 to 65 000 ms is recorded as a free value (2.3, 2.5, 2.6; log 10). -/
def Obligations.CadenceMeterMeasuresPeriods : Prop :=
  ∀ (s : State) (n : Nat) (c : Chan), s.chan n = some c → c.drive = false → c.driven = true →
    let e := s.regime.active.channel n
    let c1 : Chan := { c with drive := true, holdFrom := none }
    let seen : Chan := { c1 with lastRise := some s.now, steadyFrom := some s.now }
    let near (m x : Nat) : Prop := (max x m - min x m) * 100 ≤ e.tolerance * m
    (c.metered = false → exec (.risingEdge n) s = .next (s.beginArrival.setChan n c1)) ∧
    (c.metered = true → (c.lastRise = none ∨ c.lock = .steady) →
      exec (.risingEdge n) s = .next (s.beginArrival.setChan n seen).settleHolders) ∧
    (∀ t, c.metered = true → c.lastRise = some t →
      let p := s.now - t
      let timed : Chan := { seen with lastPeriod := some p }
      (c.lock = .unlocked → 50 ≤ p → p ≤ 5000 → c.run.length ≤ 3 →
        let run := if c.run.length = 3 then (c.run ++ [p]).tail else c.run ++ [p]
        let m := (run.sum + 1) / 3
        let sig : Signal := if inWindow e.evac m then .evac else if inWindow e.alert m then .alert else .evacUnknown
        ((run.length = 3 ∧ ∀ x ∈ run, near m x) → ∃ u, exec (.risingEdge n) s = .next u ∧
          (s.regime.active.used n = true → s.signalHanded u n) ∧ (∀ k, k ≠ n → u.chan k = s.chan k) ∧
          u.chan n = some { timed with run := [], lock := .locked m, signal := sig } ∧
          u.event.stands (.chan n) .cadenceUnknown = decide (sig = .evacUnknown)) ∧
        (¬(run.length = 3 ∧ ∀ x ∈ run, near m x) →
          exec (.risingEdge n) s = .next (s.beginArrival.setChan n { timed with run := run }).settleHolders)) ∧
      (c.lock = .unlocked → (p < 50 ∨ 5000 < p) → ∃ x u, 1 ≤ x ∧ x ≤ 65000 ∧ (1 ≤ p → p ≤ 65000 → x = p) ∧
        exec (.risingEdge n) s = .next u ∧ u.chan n = some { seen with lastPeriod := some x, run := [] } ∧
        (∀ k, k ≠ n → u.chan k = s.chan k) ∧
        u = { s.beginArrival with sense := u.sense, ann := u.ann, freeCount := u.freeCount }) ∧
      (∀ m, c.lock = .locked m →
        (50 ≤ p → p ≤ 5000 → near m p → exec (.risingEdge n) s = .next (s.beginArrival.setChan n timed).settleHolders) ∧
        (¬(50 ≤ p ∧ p ≤ 5000 ∧ near m p) → ∃ x u, 1 ≤ x ∧ x ≤ 65000 ∧ (1 ≤ p → p ≤ 65000 → x = p) ∧
          exec (.risingEdge n) s = .next u ∧ (∀ k, k ≠ n → u.chan k = s.chan k) ∧
          u.chan n = some { seen with
            lastPeriod := some x, changed := true, lock := .unlocked, run := if 50 ≤ p ∧ p ≤ 5000 then [p] else [] } ∧
          u.event = s.event.take ⟨.status, .cadenceChanged, s.now, .chan n, [fNum m, fNum p, fOptNum c.lastOnTime]⟩ ∧
          u = { s.beginArrival with sense := u.sense, event := u.event, ann := u.ann, freeCount := u.freeCount })))

/-- A falling edge times the hold, records the on-time and ends a STEADY lock. The expired hold makes the channel UNDRIVEN: its meter goes to
the head of the meter-wait queue, or it leaves that queue, its signal is NONE and what was measured is kept (2.3 to 2.5). -/
def Obligations.FallingEdgeAndHoldExpiry : Prop :=
  ∀ (s : State) (n : Nat) (c : Chan), s.chan n = some c →
    (c.drive = false → exec (.fallingEdge n) s = .next s) ∧
    (c.drive = true →
      let c1 : Chan := { c with drive := false, holdFrom := some s.now }
      let fell : Chan := if c.lock = .steady then { c1 with steadyFrom := none, lock := .unlocked, run := [], lastRise := none }
        else { c1 with steadyFrom := none }
      (c.metered = false → exec (.fallingEdge n) s = .next (s.beginArrival.setChan n c1)) ∧
      (c.metered = true → c.lastRise = none → exec (.fallingEdge n) s = .next (s.beginArrival.setChan n fell)) ∧
      (∀ t, c.metered = true → c.lastRise = some t → ∃ x k, 1 ≤ x ∧ x ≤ 65000 ∧
        (1 ≤ s.now - t → s.now - t ≤ 65000 → x = s.now - t ∧ k = s.freeCount) ∧
        exec (.fallingEdge n) s = .next { s.beginArrival.setChan n { fell with lastOnTime := some x } with freeCount := k })) ∧
    (∀ t, c.driven = true → c.holdFrom = some t →
      (s.now < t + s.regime.active.options.holdMs → exec (.holdDeadline n) s = .next s) ∧
      (t + s.regime.active.options.holdMs ≤ s.now →
        let done : Chan := { c with
          driven := false, holdFrom := none, binding := .unbound, starve := none, run := [], lastRise := none
          steadyFrom := none, lock := .unlocked, signal := .none }
        (s.regime.active.used n = false → exec (.holdDeadline n) s =
          .next (s.beginArrival.setChan n { c with driven := false, holdFrom := none, lock := .unlocked })) ∧
        (s.regime.active.used n = true → (c.metered = true ∨ c.binding = .waiting) → ∃ u, exec (.holdDeadline n) s = .next u ∧
          s.signalHanded u n ∧ u.event.stands (.chan n) .cadenceUnknown = false ∧ u.line = { s.line with sent := [] } ∧
          (c.binding = .waiting → u.chan n = some done ∧ u.sense.queue = s.sense.queue.filter (· ≠ n) ∧
            u.event.stands (.chan n) .meterStarved = false ∧ (∀ k, k ≠ n → u.chan k = s.chan k)) ∧
          (∀ m, c.binding = .bound m .cadence →
            (s.sense.queue = [] → u.chan n = some done ∧ u.sense.queue = [] ∧ (∀ k, k ≠ n → u.chan k = s.chan k)) ∧
            (∀ h q ch, s.sense.queue = h :: q → h ≠ n → s.chan h = some ch →
              u.chan n = some done ∧ u.sense.queue = q ∧
              u.chan h = some { ch with
                binding := .bound m .cadence, starve := none, run := [], lastRise := none
                steadyFrom := if ch.drive then some s.now else none } ∧
              u.event.stands (.chan h) .meterStarved = false ∧ (∀ k, k ≠ n → k ≠ h → u.chan k = s.chan k))))))

/-- The starve deadline of a waiting channel enters METER-STARVED. Drive present for the steady threshold makes the lock STEADY at EVAC; from
LOCKED it is a change, with its event (2.4, 2.5). -/
def Obligations.StarveAndSteadyExpiries : Prop :=
  ∀ (s : State) (n : Nat) (c : Chan), s.chan n = some c →
    (∀ d, c.starve = some d →
      (s.now < d → exec (.starveDeadline n) s = .next s) ∧
      (d ≤ s.now → exec (.starveDeadline n) s =
        .next ((s.beginArrival.setChan n { c with starve := none }).enterTrouble (.chan n) .meterStarved none))) ∧
    (∀ t, c.metered = true → c.steadyFrom = some t →
      (s.now < t + s.regime.active.options.steadyMs → exec (.steadyThreshold n) s = .next s) ∧
      (t + s.regime.active.options.steadyMs ≤ s.now →
        let steady : Chan := { c with run := [], lock := .steady, steadyFrom := none, signal := .evac }
        ∃ u, exec (.steadyThreshold n) s = .next u ∧ (s.regime.active.used n = true → s.signalHanded u n) ∧
          u.event.stands (.chan n) .cadenceUnknown = false ∧ u.sense.queue = s.sense.queue ∧
          (∀ k, k ≠ n → u.chan k = s.chan k) ∧
          (∀ m, c.lock = .locked m → u.chan n = some { steady with changed := true } ∧
            s.raises u ⟨.status, .cadenceChanged, s.now, .chan n, [fNum m, fWord "STEADY", fOptNum c.lastOnTime]⟩) ∧
          ((∀ m, c.lock ≠ .locked m) → u.chan n = some steady)))

/-- CHANCLR clears the change flag. SPOT is refused on a DRIVEN or spotting channel, then with no free meter; else the lowest free meter
measures for 2 s. The result is DONE with the mean of the readings, each above 65 000 ohms counting as 65 000, and the meter is handed on (2.5,
2.7; a mean that is no whole number is a free value between its two neighbours, log 54; with no reading given the value is free, log 17). -/
def Obligations.SpotMeasurementAndChangeFlag : Prop :=
  (∀ (s : State) m, s.sense.freeMeter = some m ↔ (1 ≤ m ∧ m ≤ 4 ∧ (∀ k ck, s.chan k = some ck → ck.meter ≠ some m) ∧
    ∀ j, 1 ≤ j → j < m → ∃ k ck, s.chan k = some ck ∧ ck.meter = some j)) ∧
  (∀ (s : State) (f : List Text), s.takes (.chanclr f) = true →
    (∀ k, fields1 (number 1 24) f = .error k → s.refuses (.chanclr f) "FIELD" [fNum k]) ∧
    (∀ n c, fields1 (number 1 24) f = .ok n → s.chan n = some c →
      exec (.chanclr f) s = .next ((s.answered "CHANCLR" f (s.okLine "CHANCLR" [fNum n])).setChan n { c with changed := false }))) ∧
  (∀ (s : State) (f : List Text), s.takes (.spot f) = true →
    (∀ k, fields1 (number 1 24) f = .error k → s.refuses (.spot f) "FIELD" [fNum k]) ∧
    (∀ n c, fields1 (number 1 24) f = .ok n → s.chan n = some c →
      ((c.driven = true ∨ c.spotting = true) → s.refuses (.spot f) "STATE" []) ∧
      (c.driven = false → c.spotting = false → s.sense.freeMeter = none → s.refuses (.spot f) "NO-METER" []) ∧
      (c.driven = false → c.spotting = false → ∀ m, s.sense.freeMeter = some m →
        exec (.spot f) s = .next ((s.answered "SPOT" f (s.okLine "SPOT" [fNum n, fNum m])).setChan n
          { c with binding := .bound m .spot, spotDeadline := some (s.now + 2000) })))) ∧
  (∀ (s : State) (n m d : Nat) (readings : List Nat) (c : Chan), s.chan n = some c → c.binding = .bound m .spot →
    c.spotDeadline = some d → ∃ ohms k : Nat,
    let total := (readings.map fun r => if r ≤ 65000 then r else 65000).sum
    let done : Chan := { c with spot := some ⟨some ohms⟩, spotDeadline := none, binding := .unbound }
    let e : Event := ⟨.status, .spotDone, s.now, .chan n, [fWord "DONE", fNum ohms, fFlag false]⟩
    ohms ≤ 65000 ∧ (readings ≠ [] → total / readings.length ≤ ohms ∧ ohms ≤ total / readings.length + 1 ∧
      (total % readings.length = 0 → ohms = total / readings.length ∧ k = s.freeCount)) ∧
    (s.now < d → exec (.spotDeadline n readings) s = .next s) ∧
    (d ≤ s.now → s.sense.queue = [] → exec (.spotDeadline n readings) s =
      .next { s.beginArrival.setChan n done with event := s.event.take e, freeCount := k }) ∧
    (d ≤ s.now → ∀ h q ch, s.sense.queue = h :: q → h ≠ n → s.chan h = some ch →
      ∃ u, exec (.spotDeadline n readings) s = .next u ∧ u.chan n = some done ∧ s.raises u e ∧ u.sense.queue = q ∧
        u.chan h = some { ch with
          binding := .bound m .cadence, starve := none, run := [], lastRise := none
          steadyFrom := if ch.drive then some s.now else none } ∧
        u.event.stands (.chan h) .meterStarved = false ∧ (∀ j, j ≠ n → j ≠ h → u.chan j = s.chan j) ∧
        u = { s.beginArrival with sense := u.sense, event := u.event, freeCount := k }))

/-! ### Zones and incidents -/

/-- A zone takes each signal it is handed by its state: a quiet zone starts confirming over its confirm time; a confirming one follows the
signal or is cleared; an alarmed one is latched and an isolated one only records. With a confirm time of 0 a quiet zone enters ALARM at once,
without ZONE-CONFIRMING, and is placed in an incident (3.2, 3.3, 3.6). -/
def Obligations.ZoneTakesASignalByItsState : Prop :=
  ∀ (s : State) (z : Nat) (r : Zone) (e : ZoneEntry), s.zone z = some r → s.regime.active.zone z = some e →
    ((r.state = .normal ∨ r.state = .trouble) →
      s.zoneTakesSignal z .none = s.setZone z { r with signal := .none } ∧
      (e.confirmSeconds ≠ 0 → ∀ sig l, ((sig = ZoneSignal.alert ∧ l = Level.alert) ∨ (sig = .evac ∧ l = .evac)) →
        s.zoneTakesSignal z sig = { s.setZone z { r with
            signal := sig, state := .confirming, level := some l, confirm := some (s.now + e.confirmSeconds * 1000)
            enteredAt := s.now } with
          event := s.event.take ⟨.status, .zoneConfirming, s.now, .zone z, [fWord l.name]⟩ }) ∧
      (e.confirmSeconds = 0 → r.incident = none → ∀ sig l, ((sig = ZoneSignal.alert ∧ l = Level.alert) ∨ (sig = .evac ∧ l = .evac)) →
        let u := s.zoneTakesSignal z sig
        (∃ id, u.zone z = some { r with
            signal := sig, state := .alarm, level := some l, confirm := none, enteredAt := s.now, incident := some id } ∧
          ∃ i ∈ u.fire.incidents, i.id = id ∧ ∃ m ∈ i.members, m.zone = z) ∧
        ∃ es : List Event, (es.foldl EventUnit.take s.event).queue = u.event.queue ∧ (es.foldl EventUnit.take s.event).gap = u.event.gap ∧
          ⟨.fire, .zoneAlarm, s.now, .zone z, [fWord l.name]⟩ ∈ es ∧ ∀ x ∈ es, x.time = s.now ∧ x.kind ≠ .zoneConfirming)) ∧
    (r.state = .confirming →
      s.zoneTakesSignal z .alert = s.setZone z { r with signal := .alert, level := some .alert } ∧
      s.zoneTakesSignal z .evac = s.setZone z { r with signal := .evac, level := some .evac } ∧
      s.zoneTakesSignal z .none = { s.setZone z { r with
          signal := .none, state := if r.lineFault then .trouble else .normal, level := none, confirm := none
          incident := none, enteredAt := s.now } with
        event := s.event.take ⟨.status, .zoneCleared, s.now, .zone z, []⟩ }) ∧
    (r.state = .alarm → ∀ sig, (sig ≠ .evac ∨ r.level ≠ some .alert) →
      s.zoneTakesSignal z sig = s.setZone z { r with signal := sig }) ∧
    (r.state = .alarm → r.level = some .alert → ∀ i id, r.incident = some id → s.incident id = some i →
      (s.zoneTakesSignal z .evac).zone z = some { r with signal := .evac, level := some .evac } ∧
      (i.severity = .alert → (s.zoneTakesSignal z .evac).incident id = some { i with
        severity := .evacuate, escalation := none, state := if i.state = .silenced then .accepted else i.state }) ∧
      (i.severity = .evacuate → (s.zoneTakesSignal z .evac).fire.incidents = s.fire.incidents)) ∧
    (r.state = .isolated → ∀ sig, s.zoneTakesSignal z sig = s.setZone z { r with signal := sig })

/-- A confirm expiry latches the zone in ALARM and places it: with an incident of its group, else as a new incident while a slot is free, else
merged into the last. The demand then follows the table, and the first incident ends MAINTENANCE (3.2, 3.6, 3.7, 3.10). -/
def Obligations.ConfirmExpiryPlacesTheZone : Prop :=
  ∀ (s : State) (z d : Nat) (r : Zone) (l : Level) (e : ZoneEntry), s.zone z = some r → r.confirm = some d → r.level = some l →
    s.regime.active.zone z = some e →
    (s.now < d → exec (.confirmDeadline z) s = .next s) ∧
    (d ≤ s.now →
      let latched (id : Nat) : Zone := { r with
        state := .alarm, level := some l, confirm := none, enteredAt := s.now, incident := some id }
      let joined (i : Incident) (merged : Bool) : Incident := { i with
        members := i.members ++ [⟨z, s.now, merged⟩]
        severity := if l = .evac then .evacuate else i.severity
        escalation := if l = .evac ∧ i.severity = .alert then none else i.escalation
        state := if i.state = .silenced then .accepted else i.state }
      ∃ u, exec (.confirmDeadline z) s = .next u ∧
        s.raises u ⟨.fire, .zoneAlarm, s.now, .zone z, [fWord l.name]⟩ ∧
        u.fire.demand = demandOf s.regime.active s.control.fallback u.fire.incidents ∧
        (∀ k, k ≠ z → u.zone k = s.zone k) ∧ u.sense = s.sense ∧ u.live = s.live ∧ u.line = { s.line with sent := [] } ∧
        (∀ i, s.fire.incidents.find? (fun x => x.hasGroup s.regime.active e.group) = some i →
          u.zone z = some (latched i.id) ∧ u.incident i.id = some (joined i false) ∧ u.control = s.control ∧
          (∀ id, id ≠ i.id → u.incident id = s.incident id)) ∧
        (s.fire.incidents.find? (fun x => x.hasGroup s.regime.active e.group) = none → s.fire.incidents.length < 8 →
          let id := firstFree s.fire.nextId (s.fire.incidents.map Incident.id)
          let sev : Severity := if l = .evac then .evacuate else .alert
          u.zone z = some (latched id) ∧ u.fire.nextId = nextOf id ∧
          u.fire.incidents = s.fire.incidents ++ [{
            id := id, origin := .zone z, state := .unaccepted, severity := sev, members := [⟨z, s.now, false⟩]
            openedAt := s.now, acceptedAt := none
            escalation := if l = .evac then none else some (s.now + e.windowSeconds * 1000) }] ∧
          s.raises u ⟨.fire, .incidentOpened, s.now, .incident id, [fNum z, fWord sev.name]⟩ ∧
          u.control = { s.control with
            mode := if s.fire.incidents = [] ∧ s.control.mode = .maintenance then .normal else s.control.mode }) ∧
        (s.fire.incidents.find? (fun x => x.hasGroup s.regime.active e.group) = none → 8 ≤ s.fire.incidents.length →
          ∀ i, s.fire.incidents.getLast? = some i →
            u.zone z = some (latched i.id) ∧ u.incident i.id = some (joined i true) ∧ u.control = s.control ∧
            (∀ id, id ≠ i.id → u.incident id = s.incident id)))

/-- An escalation expiry makes the incident EVACUATE, reports the accept window of its origin zone (in seconds, log 19), and the demand follows
(3.7, 3.10). -/
def Obligations.EscalationRaisesTheSeverity : Prop :=
  ∀ (s : State) (id d : Nat) (i : Incident), s.incident id = some i → i.escalation = some d →
    (s.now < d → exec (.escalationDeadline id) s = .next s) ∧
    (d ≤ s.now → ∃ u, exec (.escalationDeadline id) s = .next u ∧
      u.incident id = some { i with severity := .evacuate, escalation := none } ∧
      (∀ k, k ≠ id → u.incident k = s.incident k) ∧ u.fire.zones = s.fire.zones ∧ u.fire.nextId = s.fire.nextId ∧
      u.fire.demand = demandOf s.regime.active s.control.fallback u.fire.incidents ∧
      u.control = s.control ∧ u.sense = s.sense ∧ u.live = s.live ∧ u.line = { s.line with sent := [] } ∧
      (∀ z e, i.origin = .zone z → s.regime.active.zone z = some e →
        s.raises u ⟨.fire, .escalated, s.now, .incident id, [fNum e.windowSeconds]⟩))

/-- ISOLATE takes a zone that is not in ALARM out of service; RESTORE returns an isolated zone to TROUBLE or NORMAL, and a zone whose signal
is not NONE goes on at once to CONFIRMING or ALARM; its reply names the state reached (3.3). -/
def Obligations.IsolateAndRestore : Prop :=
  ∀ (s : State) (f : List Text),
    (s.takes (.isolate f) = true →
      (∀ k, fields1 (number 1 64) f = .error k → s.refuses (.isolate f) "FIELD" [fNum k]) ∧
      (∀ z, fields1 (number 1 64) f = .ok z →
        (s.zone z = none → s.refuses (.isolate f) "NOT-FOUND" []) ∧
        (∀ r, s.zone z = some r →
          (r.state = .alarm → s.refuses (.isolate f) "STATE" []) ∧
          (r.state = .isolated → s.reports (.isolate f) "ISOLATE" [fNum z]) ∧
          ((r.state = .normal ∨ r.state = .trouble ∨ r.state = .confirming) →
            exec (.isolate f) s = .next { (s.answered "ISOLATE" f (s.okLine "ISOLATE" [fNum z])).setZone z
                { r with state := .isolated, confirm := none, level := none, enteredAt := s.now } with
              event := s.event.take ⟨.status, .zoneIsolated, s.now, .zone z, []⟩ })))) ∧
    (s.takes (.restore f) = true →
      (∀ k, fields1 (number 1 64) f = .error k → s.refuses (.restore f) "FIELD" [fNum k]) ∧
      (∀ z, fields1 (number 1 64) f = .ok z →
        (s.zone z = none → s.refuses (.restore f) "NOT-FOUND" []) ∧
        (∀ r e, s.zone z = some r → s.regime.active.zone z = some e →
          (r.state ≠ .isolated → s.refuses (.restore f) "STATE" []) ∧
          (r.state = .isolated → ∃ u r', exec (.restore f) s = .next u ∧ u.zone z = some r' ∧
            u.line = s.lineWith "RESTORE" f ⟨[], s.okLine "RESTORE" [fNum z, fWord r'.state.name]⟩ ∧
            s.raises u ⟨.status, .zoneRestored, s.now, .zone z, []⟩ ∧ (∀ k, k ≠ z → u.zone k = s.zone k) ∧
            u.sense = s.sense ∧ u.live = s.live ∧ r'.signal = r.signal ∧ r'.lineFault = r.lineFault ∧ r'.enteredAt = s.now ∧
            (r.signal = .none → r'.state = (if r.lineFault then .trouble else .normal) ∧ r'.level = none ∧
              r'.confirm = none ∧ r'.incident = none ∧ u.fire.incidents = s.fire.incidents) ∧
            (r.signal ≠ .none → r'.level = r.signal.level ∧
              (e.confirmSeconds ≠ 0 → r'.state = .confirming ∧ r'.confirm = some (s.now + e.confirmSeconds * 1000) ∧
                u.fire.incidents = s.fire.incidents) ∧
              (e.confirmSeconds = 0 → r'.state = .alarm ∧ r'.confirm = none ∧ ∃ id, r'.incident = some id ∧
                ∃ i ∈ u.fire.incidents, i.id = id ∧ ∃ m ∈ i.members, m.zone = z))))))

/-- ACCEPT, SILENCE, CLOSE and MANUAL: their refusals, what each makes of the incident table, and the demand that follows (3.8). -/
def Obligations.OperatorRequestsOnIncidents : Prop :=
  ∀ (s : State) (f : List Text),
    (s.takes (.accept f) = true →
      (∀ k, fields1 (number 1 255) f = .error k → s.refuses (.accept f) "FIELD" [fNum k]) ∧
      (∀ id, fields1 (number 1 255) f = .ok id →
        (s.incident id = none → s.refuses (.accept f) "NOT-FOUND" []) ∧
        (∀ i, s.incident id = some i →
          (i.state ≠ .unaccepted → s.reports (.accept f) "ACCEPT" [fNum id, fWord i.state.name, fWord i.severity.name]) ∧
          (i.state = .unaccepted → ∃ u, exec (.accept f) s = .next u ∧
            u.line = s.lineWith "ACCEPT" f ⟨[], s.okLine "ACCEPT" [fNum id, fWord "ACCEPTED", fWord i.severity.name]⟩ ∧
            u.incident id = some { i with state := .accepted, acceptedAt := some s.now, escalation := none } ∧
            (∀ k, k ≠ id → u.incident k = s.incident k) ∧ u.fire.zones = s.fire.zones ∧ u.control = s.control ∧
            u.fire.demand = demandOf s.regime.active s.control.fallback u.fire.incidents ∧
            s.raises u ⟨.status, .incidentAccepted, s.now, .incident id, []⟩)))) ∧
    (s.takes (.silence f) = true →
      (∀ k, fields1 (number 1 255) f = .error k → s.refuses (.silence f) "FIELD" [fNum k]) ∧
      (∀ id, fields1 (number 1 255) f = .ok id →
        (s.incident id = none → s.refuses (.silence f) "NOT-FOUND" []) ∧
        (∀ i, s.incident id = some i →
          (i.state = .unaccepted → s.refuses (.silence f) "STATE" []) ∧
          (i.state = .silenced → s.reports (.silence f) "SILENCE" [fNum id]) ∧
          (i.state = .accepted → ∃ u, exec (.silence f) s = .next u ∧
            u.line = s.lineWith "SILENCE" f ⟨[], s.okLine "SILENCE" [fNum id]⟩ ∧
            u.incident id = some { i with state := .silenced } ∧
            (∀ k, k ≠ id → u.incident k = s.incident k) ∧ u.fire.zones = s.fire.zones ∧ u.control = s.control ∧
            u.fire.demand = demandOf s.regime.active s.control.fallback u.fire.incidents ∧
            s.raises u ⟨.status, .incidentSilenced, s.now, .incident id, []⟩)))) ∧
    (s.takes (.close f) = true →
      (∀ k, fields1 (number 1 255) f = .error k → s.refuses (.close f) "FIELD" [fNum k]) ∧
      (∀ id, fields1 (number 1 255) f = .ok id →
        (s.incident id = none → s.refuses (.close f) "NOT-FOUND" []) ∧
        (∀ i, s.incident id = some i →
          (i.state = .unaccepted → s.refuses (.close f) "STATE" []) ∧
          (∀ before m after r, i.state ≠ .unaccepted → i.members = before ++ m :: after →
            (∀ x ∈ before, ∀ rx, s.zone x.zone = some rx → rx.signal = .none) → s.zone m.zone = some r → r.signal ≠ .none →
            s.refuses (.close f) "SOUNDING" [fNum m.zone]) ∧
          (i.state ≠ .unaccepted → (∀ x ∈ i.members, ∀ rx, s.zone x.zone = some rx → rx.signal = .none) →
            ∃ u, exec (.close f) s = .next u ∧ u.line = s.lineWith "CLOSE" f ⟨[], s.okLine "CLOSE" [fNum id]⟩ ∧
              u.fire.incidents = s.fire.incidents.filter (fun x => decide (x.id ≠ id)) ∧ u.fire.nextId = s.fire.nextId ∧
              (∀ m ∈ i.members, ∀ r, s.zone m.zone = some r → u.zone m.zone = some { r with
                state := if r.lineFault then .trouble else .normal, level := none, confirm := none, incident := none
                enteredAt := s.now }) ∧
              (∀ z, (∀ m ∈ i.members, m.zone ≠ z) → u.zone z = s.zone z) ∧ u.control = s.control ∧
              u.fire.demand = demandOf s.regime.active s.control.fallback u.fire.incidents ∧
              s.raises u ⟨.status, .incidentClosed, s.now, .incident id, [fNum i.members.length]⟩)))) ∧
    (s.takes (.manual f) = true →
      (∀ k, fields1 manualSeverity f = .error k → s.refuses (.manual f) "FIELD" [fNum k]) ∧
      (∀ sev, fields1 manualSeverity f = .ok sev →
        (8 ≤ s.fire.incidents.length → s.refuses (.manual f) "FULL" []) ∧
        (s.fire.incidents.length < 8 →
          let id := firstFree s.fire.nextId (s.fire.incidents.map Incident.id)
          ∃ u, exec (.manual f) s = .next u ∧
            u.line = s.lineWith "MANUAL" f ⟨[], s.okLine "MANUAL" [fNum id, fWord sev.name]⟩ ∧
            u.fire.incidents = s.fire.incidents ++ [{
              id := id, origin := .manual, state := .accepted, severity := sev, members := [], openedAt := s.now
              acceptedAt := some s.now, escalation := none }] ∧
            u.fire.nextId = nextOf id ∧ u.fire.zones = s.fire.zones ∧
            u.fire.demand = demandOf s.regime.active s.control.fallback u.fire.incidents ∧
            s.raises u ⟨.fire, .incidentOpened, s.now, .incident id, [fWord "MANUAL", fWord sev.name]⟩ ∧
            u.control = { s.control with
              mode := if s.fire.incidents = [] ∧ s.control.mode = .maintenance then .normal else s.control.mode })))

/-- The building demand of an incident table: recall groups, released stairs, guard floors, audio claims, store freeze and tenant stop; an
incident's band runs from its lowest fire floor less its greatest band below, 0 at least, to its highest plus its greatest band above, 63 at most
(3.10). -/
def Obligations.DemandOfTheOpenIncidents : Prop :=
  ∀ (r : Regime) (fallback : Bool) (is : List Incident),
    let d := demandOf r fallback is
    let rows (i : Incident) (e : ZoneEntry) : Prop := ∃ m ∈ i.members, r.zone m.zone = some e
    let band (i : Incident) (a : Nat) : Prop := ∃ lo hi f fl, i.band r = some (lo, hi) ∧ lo ≤ f ∧ f ≤ hi ∧
      r.floor f = some fl ∧ fl.audioZone = some a
    let evac (a : Nat) : Prop := ∃ i ∈ is, i.state ≠ .silenced ∧ i.severity = .evacuate ∧
      (band i a ∨ i.origin = .manual ∨ fallback = true)
    let alert (a : Nat) : Prop := ∃ i ∈ is, i.state ≠ .silenced ∧
      ((i.severity = .alert ∧ (band i a ∨ i.origin = .manual)) ∨
       (i.severity = .evacuate ∧ (i.band r).isSome ∧ ∃ e, rows i e ∧ e.rest = true))
    (∀ g, g ∈ d.recallGroups ↔ (g = 1 ∨ g = 2) ∧ ∃ i ∈ is,
      (∃ e, rows i e ∧ g ∈ (if i.severity = .alert then e.recallAlert else e.recallEvac)) ∨
      (i.origin = .manual ∧ (rec1 r.groups g).isSome = true)) ∧
    (∀ st, d.stair st = .full ↔ ∃ i ∈ is, i.severity = .evacuate ∧
      (i.origin = .manual ∨ ∃ e, rows i e ∧ st ∈ e.stairsEvac)) ∧
    (∀ st, d.stair st = .reentry ↔ d.stair st ≠ .full ∧ ∃ i ∈ is, i.severity = .alert ∧
      (i.origin = .manual ∨ ∃ e, rows i e ∧ st ∈ e.stairsAlert)) ∧
    (∀ fl, fl ∈ d.guardFloors ↔ fl < 64 ∧ ∃ i ∈ is, ∃ e, rows i e ∧ fl ∈ e.floors) ∧
    (∀ i, i.band r = none ↔ ∀ fl e, fl < 64 → rows i e → fl ∉ e.floors) ∧
    (∀ i lo hi, i.band r = some (lo, hi) → ∃ first last below above : Nat,
      let fire (fl : Nat) : Prop := fl < 64 ∧ ∃ e, rows i e ∧ fl ∈ e.floors
      fire first ∧ fire last ∧ (∀ fl, fire fl → first ≤ fl ∧ fl ≤ last) ∧
      (∃ e, rows i e ∧ e.below = below) ∧ (∀ e, rows i e → e.below ≤ below) ∧
      (∃ e, rows i e ∧ e.above = above) ∧ (∀ e, rows i e → e.above ≤ above) ∧
      lo = (if first < below then 0 else first - below) ∧ hi = (if 63 < last + above then 63 else last + above)) ∧
    (∀ a, 1 ≤ a → a ≤ 48 →
      (at1 d.claims a = some .evac ↔ r.azonePresent a = true ∧ evac a) ∧
      (at1 d.claims a = some .alert ↔ r.azonePresent a = true ∧ ¬evac a ∧ alert a)) ∧
    (d.freeze = true ↔ is ≠ []) ∧ (d.tenantStop = true ↔ is ≠ [])

/-- A demand that a command has changed has been taken by the lift unit, the door unit, the announcement unit and the clip store (3.10, 4.4, 4.7, 5.3,
5.6, 6.1, 6.2, 6.4, 8.7): cars recalled, released and moved by the guards, doors freed and sent to re-lock, open doors timed again, tenant announcements
ended, fire claim sets taken with the runs of EVAC and ALERT that they begin and end, and an erase suspended or resumed (a re-targeted car's late arrival
report: log 61). -/
def Obligations.DemandChangeIsHandedOut : Prop :=
  ∀ (s u : State) (c : Instr) (n : Nat) (f : List Text),
    c ∈ [.risingEdge n, .holdDeadline n, .steadyThreshold n, .confirmDeadline n, .escalationDeadline n, .restore f, .accept f, .silence f,
      .close f, .manual f] →
    exec c s = .next u → u.fire.demand ≠ s.fire.demand → s.liftTook u ∧ s.doorTook u ∧ s.annTook u ∧ s.storeTook u

/-! ### Lift recall and crew service -/

/-- A valid CAR REPORT writes the five fields and brings the link up for 1 s. One equal to the report before changes nothing else (log 13). Another
checks a door opening against the guards and moves the car by its service, then by its key: recall phases, homing, re-recall, crew service, the
return from OUT, with the frames each sends. A re-targeted car's arrival report at its old target is a stop at another landing: doors that open there
abort it (4.1, 4.5 to 4.9; the start landing of a car that has reported none is free, log 11; which report is the late arrival report, log 61). -/
def Obligations.CarReportMovesTheCar : Prop :=
  ∀ (s : State) (n : Nat) (c : Car) (r : CarReport), s.car n = some c → r.wellFormed = true →
    let g := s.carGroup n
    let recalled := s.fire.demand.recallGroups.contains g = true
    let c1 : Car := { c with
      linkUp := true, report := some r, reportAt := s.now, linkDeadline := some (s.now + 1000)
      lastLanding := if r.landing.isSome then r.landing else c.lastLanding }
    let opens := r.doors = .opening ∧ ∀ b, c.report = some b → b.doors ≠ .opening
    let violates := opens ∧ r.key ≠ .override ∧ s.lift.latch = none ∧ ∃ l, r.landing = some l ∧ s.barred g l = true
    let off (x : Car) : Car := { x with keyIgnored := false }
    let keyed (x : Car) : Car :=
      if r.key = .off then off x else if x.service = .homed then off (x.settled .crew) else { x with keyIgnored := true }
    let out (code : AbortCode) : Car := { c1.settled .out with lastAbort := some ⟨code, none, c1.lastLanding, s.now⟩ }
    let bound (t : Nat) : Car := { c1.settled .recalling with
      target := some t, phase := some .sent, phaseDeadline := some (s.now + 1000) }
    let homed : Car := { c1 with service := .homed, phase := none, startLanding := none, phaseDeadline := none }
    let travelling (start : Nat) : Car := { c1 with
      phase := some .travelling, startLanding := some start
      phaseDeadline := some (s.now + 8000 + 2000 * between start (c.target.getD start)) }
    ∃ u, exec (.carReport n r) s = .next u ∧
      let becomes (x : Car) (frames : List PartFrame) : Prop :=
        u.car n = some (keyed x) ∧ u.lift.sent = frames.map fun f => (n, f)
      let aborted (code : AbortCode) (frames : List PartFrame) : Prop :=
        becomes (out code) frames ∧ u.event.stands (.car n) .liftOut = true
      let arrives : Prop := (r.doors = .opened → becomes homed [.holdDoors]) ∧
        (r.doors ≠ .opened → becomes { c1 with phase := some .arrived, startLanding := none, phaseDeadline := some (s.now + 6000) } [])
      let recalls : Prop := (∀ t, s.recallTarget g = some t → becomes (bound t) [.recallTo t]) ∧
        (s.recallTarget g = none → aborted .noSafeLanding [])
      (∀ k, k ≠ n → u.car k = s.car k) ∧ u.lift.guards = s.lift.guards ∧ at1 u.lift.rx n = some [] ∧
      u = { s.beginArrival with lift := u.lift, event := u.event, freeCount := u.freeCount } ∧
      (∃ c2, u.car n = some c2 ∧ c2.report = some r ∧ c2.reportAt = s.now ∧ c2.linkUp = true ∧
        c2.linkDeadline = some (s.now + 1000) ∧ c2.lastLanding = c1.lastLanding) ∧
      (c.linkUp = false → u.event.stands (.car n) .liftLost = false) ∧
      (violates → ∃ l, r.landing = some l ∧ u.lift.latch = some ⟨n, l, .doorsAtNoStop, s.now⟩) ∧
      (¬violates → u.lift.latch = s.lift.latch) ∧
      (c.report = some r →
        u = (if c.linkUp then (s.beginArrival.setRx n []).setCar n c1
          else ((s.beginArrival.setRx n []).setCar n c1).resolveTrouble (.car n) .liftLost)) ∧
      (c.report ≠ some r →
        (c.service = .tenant → becomes c1 []) ∧
        (r.inService = false →
          (c.service = .recalling → aborted .carFault [.cancelRecall]) ∧ (c.service = .homed → aborted .carFault []) ∧
          (c.service = .crew → aborted .carFault [.callCancelAll])) ∧
        (r.inService = true → c.service = .recalling → ∀ t, c.target = some t →
          (c.phase = some .sent →
            (∀ l, c.late = some l → stoppedAt r l = true →
              (opens → aborted .wrongLanding [.cancelRecall]) ∧ (¬opens → becomes { c1 with late := none } [])) ∧
            ((∀ l, c.late = some l → stoppedAt r l = false) → becomes c1 [])) ∧
          (c.phase = some .taken →
            (stoppedAt r t = true → arrives) ∧
            (r.motion ≠ .stopped → ∃ l, l < 64 ∧ (∀ k, c1.lastLanding = some k → l = k) ∧ becomes (travelling l) []) ∧
            (stoppedAt r t = false → r.motion = .stopped → becomes c1 [])) ∧
          (c.phase = some .travelling →
            (stoppedAt r t = true → arrives) ∧
            (stoppedAt r t = false → r.motion = .stopped → r.landing.isSome = true → opens →
              aborted .wrongLanding [.cancelRecall]) ∧
            (stoppedAt r t = false → ¬(r.motion = .stopped ∧ r.landing.isSome = true ∧ opens) → becomes c1 [])) ∧
          (c.phase = some .arrived →
            (r.doors = .opened → becomes homed [.holdDoors]) ∧
            (r.doors ≠ .opened → r.motion ≠ .stopped → becomes (travelling t) []) ∧
            (r.doors ≠ .opened → r.motion = .stopped → becomes c1 []))) ∧
        (r.inService = true → c.service = .homed →
          (r.motion = .stopped → becomes c1 []) ∧ (r.motion ≠ .stopped → recalls)) ∧
        (r.inService = true → c.service = .crew →
          let served : Car :=
            if r.motion = .stopped ∧ r.doors = .opening ∧ (c.report.map CarReport.doors) ≠ some .opening then
              match r.landing with
              | some l => { c1 with calls := c.calls.filter fun x => x != l }
              | none => c1
            else c1
          (r.key ≠ .off → ¬(r.key = .on ∧ c.report.map CarReport.key = some .override) →
            u.car n = some served ∧ u.lift.sent = []) ∧
          (r.key = .on → c.report.map CarReport.key = some .override →
            u.car n = some { served with calls := served.calls.filter fun l => !s.barred g l } ∧
            u.lift.sent = (served.calls.filter fun l => s.barred g l).map fun l => (n, .callCancel l)) ∧
          (r.key = .off → ¬recalled →
            u.car n = some (off (c1.settled .tenant)) ∧ u.lift.sent = [(n, .callCancelAll), (n, .release)]) ∧
          (r.key = .off → recalled →
            (∀ t, s.recallTarget g = some t → becomes (bound t) [.callCancelAll, .recallTo t]) ∧
            (s.recallTarget g = none → aborted .noSafeLanding [.callCancelAll]))) ∧
        (c.service = .out →
          let returns := r.inService = true ∧ ∀ b, c.report = some b → b.inService = false
          (¬returns → becomes c1 []) ∧
          (returns → ¬recalled → becomes { c1 with service := .tenant } [] ∧ u.event.stands (.car n) .liftOut = false) ∧
          (returns → recalled → recalls)))

/-- ORDER TAKEN and ORDER REFUSED count only for the target of a car in phase SENT with its link up. A phase deadline aborts the car with the
code of its phase, a link deadline with LINK-LOST; an abort takes the car OUT, sends the frame of the service it leaves and enters LIFT-OUT
(4.1, 4.2, 4.5, 4.6). The model's readings in it: a car that ORDER TAKEN finds at its target has 6 s from ORDER TAKEN to open its doors (log 12), and no
arrival report of an older target is late after it (log 61). -/
def Obligations.OrdersDeadlinesAndAborts : Prop :=
  ∀ (s : State) (n : Nat) (c : Car), s.car n = some c →
    let idle := s.beginArrival.setRx n []
    let out (code : AbortCode) (reason : Option Nat) : Car := { c.settled .out with
      lastAbort := some ⟨code, reason, c.lastLanding, s.now⟩ }
    let waiting (l : Nat) : Prop := c.linkUp = true ∧ c.service = .recalling ∧ c.phase = some .sent ∧ c.target = some l
    let taken : Car := { c with phase := some .taken, late := none, phaseDeadline := some (s.now + 10000) }
    (∀ l, l ≤ 63 → ¬waiting l → exec (.orderTaken n l) s = .next idle) ∧
    (∀ l, l ≤ 63 → waiting l →
      ((c.report = none ∨ ∃ r, c.report = some r ∧ stoppedAt r l = false ∧ r.motion = .stopped) →
        exec (.orderTaken n l) s = .next (idle.setCar n taken)) ∧
      (∀ r, c.report = some r → stoppedAt r l = true → r.doors ≠ .opened →
        exec (.orderTaken n l) s = .next (idle.setCar n { taken with
          phase := some .arrived, startLanding := none, phaseDeadline := some (s.now + 6000) })) ∧
      (∀ r, c.report = some r → stoppedAt r l = true → r.doors = .opened → ∃ u, exec (.orderTaken n l) s = .next u ∧
        u.car n = some { taken with service := .homed, phase := none, startLanding := none, phaseDeadline := none } ∧
        u.lift.sent = [(n, .holdDoors)] ∧ u = { idle with lift := u.lift, event := u.event }) ∧
      (∀ r st, c.report = some r → r.motion ≠ .stopped → c.lastLanding = some st →
        exec (.orderTaken n l) s = .next (idle.setCar n { taken with
          phase := some .travelling, startLanding := some st
          phaseDeadline := some (c.reportAt + 8000 + 2000 * between st l) }))) ∧
    (∀ l reason, l ≤ 63 → 1 ≤ reason → reason ≤ 15 →
      (¬waiting l → exec (.orderRefused n l reason) s = .next idle) ∧
      (waiting l → ∃ u, exec (.orderRefused n l reason) s = .next u ∧ u.car n = some (out .refused (some reason)) ∧
        u.lift.sent = [(n, .cancelRecall)] ∧ u.event.stands (.car n) .liftOut = true ∧
        u = { idle with lift := u.lift, event := u.event } ∧ (∀ k, k ≠ n → u.car k = s.car k))) ∧
    (∀ p d, c.phase = some p → c.phaseDeadline = some d → c.service = .recalling →
      (s.now < d → exec (.phaseDeadline n) s = .next s) ∧
      (d ≤ s.now → ∃ u, exec (.phaseDeadline n) s = .next u ∧
        u.car n = some (out (match p with
          | .sent => .noTake
          | .taken => .noStart
          | .travelling => .noArrive
          | .arrived => .noDoors) none) ∧
        u.lift.sent = [(n, .cancelRecall)] ∧ u.event.stands (.car n) .liftOut = true ∧
        u = { s.beginArrival with lift := u.lift, event := u.event } ∧ (∀ k, k ≠ n → u.car k = s.car k))) ∧
    (∀ d, c.linkDeadline = some d →
      (s.now < d → exec (.linkDeadline n) s = .next s) ∧
      (d ≤ s.now → ∃ u, exec (.linkDeadline n) s = .next u ∧ u.event.stands (.car n) .liftLost = true ∧
        u = { s.beginArrival with lift := u.lift, event := u.event } ∧ (∀ k, k ≠ n → u.car k = s.car k) ∧
        (c.linkUp = true → (c.service = .recalling ∨ c.service = .homed ∨ c.service = .crew) →
          u.car n = some { out .linkLost none with linkDeadline := none, linkUp := false } ∧
          u.event.stands (.car n) .liftOut = true ∧
          u.lift.sent = (match c.service with
            | .recalling => [(n, .cancelRecall)]
            | .crew => [(n, .callCancelAll)]
            | _ => [])) ∧
        (¬(c.linkUp = true ∧ (c.service = .recalling ∨ c.service = .homed ∨ c.service = .crew)) →
          u.car n = some { c with linkDeadline := none, linkUp := false } ∧ u.lift.sent = [])))

/-- A CALL ASK is judged by the first case that applies: not crew, not served, barred, already listed, list full, granted; a denial under
NO-STOP and a grant at a watched or barred landing take a violation (4.8). -/
def Obligations.CallAskIsJudgedInOrder : Prop :=
  ∀ (s : State) (n l : Nat) (c : Car), s.car n = some c → l ≤ 63 →
    let g := s.carGroup n
    let barred := s.barred g l = true
    let denied := barred ∧ c.key ≠ .override
    let watched := (s.landingGuard g l).watch = true ∨ barred
    let latched (k : ViolationKind) : Option Violation := match s.lift.latch with
      | some v => some v
      | none => some ⟨n, l, k, s.now⟩
    ∃ u, exec (.callAsk n l) s = .next u ∧ (∀ k, k ≠ n → u.car k = s.car k) ∧
      u = { s.beginArrival with lift := u.lift, event := u.event } ∧ u.lift.guards = s.lift.guards ∧
      (c.linkUp = false → u = s.beginArrival.setRx n []) ∧
      (c.linkUp = true →
        (c.service ≠ .crew → u = (s.beginArrival.setRx n []).sendFrame n (.callDeny l .notCrew)) ∧
        (c.service = .crew → l ∉ s.regime.active.served g →
          u = (s.beginArrival.setRx n []).sendFrame n (.callDeny l .notServed)) ∧
        (c.service = .crew → l ∈ s.regime.active.served g → denied →
          u.lift.sent = [(n, .callDeny l .noStop)] ∧ u.car n = some c ∧ u.lift.latch = latched .deniedNoStop) ∧
        (c.service = .crew → l ∈ s.regime.active.served g → ¬denied → l ∈ c.calls →
          u.lift.sent = [(n, .callGrant l)] ∧ u.car n = some c ∧
          (watched → u.lift.latch = latched .watched) ∧ (¬watched → u.lift.latch = s.lift.latch)) ∧
        (c.service = .crew → l ∈ s.regime.active.served g → ¬denied → l ∉ c.calls → 8 ≤ c.calls.length →
          u = (s.beginArrival.setRx n []).sendFrame n (.callDeny l .full)) ∧
        (c.service = .crew → l ∈ s.regime.active.served g → ¬denied → l ∉ c.calls → c.calls.length < 8 →
          u.lift.sent = [(n, .callGrant l)] ∧ u.car n = some { c with calls := c.calls ++ [l] } ∧
          (watched → u.lift.latch = latched .watched) ∧ (¬watched → u.lift.latch = s.lift.latch)))

/-- GUARD SET and GUARD CLR write one host mark of a present floor; a change of what is barred re-targets a recalling car and recalls a homed one whose
target is now barred, or aborts it when no landing is free, cancels the barred calls of a crew car, and takes a car OUT for NO-SAFE-LANDING back when
a landing is free. GUARDLATCH reports the violation latch and empties it (4.3, 4.4, 4.6 to 4.9; the old target whose arrival report may come late is
log 61). -/
def Obligations.GuardRequestsAndLatch : Prop :=
  (∀ (s : State) (g : Nat) (ge : GroupEntry), rec1 s.regime.active.groups g = some ge →
    (s.barred g ge.home = false → s.recallTarget g = some ge.home) ∧
    (∀ l, s.barred g ge.home = true → ge.alternate = some l → s.barred g l = false → s.recallTarget g = some l) ∧
    (s.barred g ge.home = true → (∀ l, ge.alternate = some l → s.barred g l = true) →
      ∀ l, s.recallTarget g = some l ↔ (l ∈ s.regime.active.served g ∧ s.barred g l = false ∧
        ∀ k ∈ s.regime.active.served g, s.barred g k = false → l ≤ k))) ∧
  (∀ (s : State) (f : List Text) (v : Bool),
    let cmd : Instr := if v then .guardSet f else .guardClr f
    let kw := if v then "GUARD SET" else "GUARD CLR"
    s.takes cmd = true →
    (∀ k, fields2 (number 0 63) hostMark f = .error k → s.refuses cmd "FIELD" [fNum k]) ∧
    (∀ n m, fields2 (number 0 63) hostMark f = .ok (n, m) →
      (s.regime.active.floor n = none → s.refuses cmd "NOT-FOUND" []) ∧
      (∀ fl, s.regime.active.floor n = some fl →
        let g := s.lift.guard n
        let g' : Guard := match m with
          | .noStop => { g with host := v }
          | .watch => { g with watch := v }
        ∃ u, exec cmd s = .next u ∧ u.lift.guard n = g' ∧ (∀ k, k ≠ n → u.lift.guard k = s.lift.guard k) ∧
          u.line = s.lineWith kw f ⟨[], s.okLine "GUARD" [fNum n, fFlag g'.incident, fFlag g'.host, fFlag g'.watch]⟩ ∧
          u = { s.beginArrival with line := u.line, lift := u.lift, event := u.event } ∧ u.lift.latch = s.lift.latch ∧
          (((g.incident || g.host) = (g'.incident || g'.host) ∧ g.watch = g'.watch) →
            u.lift.cars = s.lift.cars ∧ u.lift.sent = [] ∧ u.event = s.event) ∧
          (¬((g.incident || g.host) = (g'.incident || g'.host) ∧ g.watch = g'.watch) → ∀ k c t, s.car k = some c →
            c.service = .recalling → c.target = some t →
            (u.barred (s.carGroup k) t = false → u.car k = some c) ∧
            (∀ t', u.barred (s.carGroup k) t = true → u.recallTarget (s.carGroup k) = some t' →
              u.car k = some { c.settled .recalling with
                target := some t', phase := some .sent, late := c.lateAfter t t', phaseDeadline := some (s.now + 1000) } ∧
              (k, .recallTo t') ∈ u.lift.sent ∧
              s.raises u ⟨.status, .carRetargeted, s.now, .car k, [fNum t, fNum t']⟩) ∧
            (u.barred (s.carGroup k) t = true → u.recallTarget (s.carGroup k) = none →
              u.car k = some { c.settled .out with
                lastAbort := some ⟨.noSafeLanding, none, c.lastLanding, s.now⟩ })) ∧
          (¬((g.incident || g.host) = (g'.incident || g'.host) ∧ g.watch = g'.watch) → ∀ k c, s.car k = some c →
            u.car k = some (u.afterGuards k c).1 ∧ (u.lift.sent.filter fun x => x.1 == k).map Prod.snd = (u.afterGuards k c).2 ∧
            (c.service = .crew → c.key ≠ .override → ∀ l ∈ c.calls, u.barred (s.carGroup k) l = true →
              s.raises u ⟨.status, .callCancelled, s.now, .car k, [fNum l, fWord "NO-STOP"]⟩) ∧
            (c.service = .out → (u.afterGuards k c).1.service ≠ .out → u.event.stands (.car k) .liftOut = false))))) ∧
  (∀ (s : State) (f : List Text), s.takes (.guardlatch f) = true →
    (f ≠ [] → s.refuses (.guardlatch f) "FIELD" [fNum 1]) ∧
    (f = [] → s.lift.latch = none → s.reports (.guardlatch f) "GUARDLATCH" [fNone, fNone, fNone, fNone]) ∧
    (∀ v, f = [] → s.lift.latch = some v → exec (.guardlatch f) s = .next { s.answered "GUARDLATCH" f
        (s.okLine "GUARDLATCH" [fNum v.car, fNum v.landing, fWord v.kind.name, fTime v.time]) with
      lift := { s.lift with latch := none, sent := [] } }))

/-- Bytes on a lift line that complete no valid frame change its receiver alone, and a gap empties it; a frame they complete is judged, and one with a
bad sum, a field out of range or for an absent car is discarded. A frame command does what its bytes do, one by one, whatever the receiver held; an
adapter frame whose fields lie in range is read back from its bytes as it was sent (4.1, 10.9; INVALID_FRAME's bytes are log 33). -/
def Obligations.LiftReceiverTakesFramesOnly : Prop :=
  (∀ (s : State) (n : Nat), exec (.frameGapTimeout n) s = .next (s.beginArrival.setRx n [])) ∧
  (∀ (s : State) (n : Nat) (rx bytes : List Byte), at1 s.lift.rx n = some rx →
    (∀ before b after fr, bytes = before ++ b :: after → completedBy (before.foldl receiveByte rx) b = some fr → readFrame fr = none) →
    exec (.invalidFrame n bytes) s = .next (s.beginArrival.setRx n (bytes.foldl receiveByte rx))) ∧
  (∀ (s : State) (n : Nat) (rx fr : List Byte) (b : Byte) (f : AdapterFrame), at1 s.lift.rx n = some rx → completedBy rx b = some fr →
    readFrame fr = some f → exec (.invalidFrame n [b]) s = .next ((s.beginArrival.setRx n []).judgeFrame n f)) ∧
  (∀ (s : State) (n : Nat) (f : AdapterFrame), (s.car n = none ∨ f.wellFormed = false) → s.judgeFrame n f = s) ∧
  (∀ (s : State) (n : Nat) (f : AdapterFrame), f.wellFormed = true → exec (.invalidFrame n f.bytes) s = exec (match f with
    | .report r => .carReport n r
    | .taken l => .orderTaken n l
    | .refused l reason => .orderRefused n l reason
    | .ask l => .callAsk n l) s) ∧
  (∀ f : AdapterFrame, f.wellFormed = true → readFrame f.bytes = some f) ∧
  (∀ (s : State) (n : Nat) (rx bytes : List Byte), at1 s.lift.rx n = some rx →
    (∀ k, (s.beginArrival.setRx n bytes).car k = s.car k) ∧ at1 (s.beginArrival.setRx n bytes).lift.rx n = some bytes) ∧
  (∀ rx : List Byte, receiveByte rx 0xA5 = [0xA5] ∧ completedBy rx 0xA5 = none) ∧
  (∀ b : Byte, b ≠ 0xA5 → receiveByte [] b = []) ∧
  (∀ b : Byte, b ≠ 0xA5 → receiveByte [0xA5] b = if 1 ≤ b.toNat ∧ b.toNat ≤ 4 then [0xA5, b] else []) ∧
  (∀ (fr : AdapterFrame) (rx : List Byte), fr.wellFormed = true → fr.bytes.foldl receiveByte rx = [])

/-! ### Stair doors -/

/-- A good scan writes every present point's command, clears the miss count and takes the readings point by point; the first one of a LOST
expander brings its points back from NO-SCAN. A point of an UP expander follows the scan by its state: a pending bond check starts its 1.5 s; else
the state is judged by bond and position as the table of door point states says, and the command changes only where a lock fails to start on an
open door (5.1 to 5.5). -/
def Obligations.DoorPointFollowsAScan : Prop :=
  (∀ (s : State) (e : Nat) (x : Expander) (rs : Vector Reading 8), at1 s.door.expanders e = some x →
    (s.regime.active.configured e = false → exec (.goodScan e rs) s = .next s) ∧
    (s.regime.active.configured e = true → ∃ u, exec (.goodScan e rs) s = .next u ∧
      u = { s.beginArrival with door := u.door, event := u.event } ∧ u.door.pacing = s.door.pacing ∧
      (∃ x', at1 u.door.expanders e = some x' ∧ x'.up = true ∧ x'.misses = 0 ∧ x'.lastHeard = some s.now ∧
        ∀ i : Fin 8, x'.held[i] = s.lockOutput (8 * e - 7 + i.val)) ∧
      (∀ k, k ≠ e → at1 u.door.expanders k = at1 s.door.expanders k) ∧
      (∀ d, d ∉ span (8 * e - 7) (8 * e) → u.point d = s.point d) ∧
      (∀ (i : Fin 8) p, s.point (8 * e - 7 + i.val) = some p → ∃ q, u.point (8 * e - 7 + i.val) = some q ∧
        q.bonded = some rs[i].bonded ∧ q.closed = some rs[i].closed ∧ q.hostRelease = p.hostRelease ∧
        u.heldLock (8 * e - 7 + i.val) = s.lockOutput (8 * e - 7 + i.val) ∧
        (x.up = true → u.point (8 * e - 7 + i.val) = (s.scanPoint (8 * e - 7 + i.val) rs[i]).point (8 * e - 7 + i.val) ∧
          (rs[i].closed = true → q.openSince = none ∧ q.heldDeadline = none ∧ q.heldFlag = false) ∧
          (rs[i].closed = false → (p.openSince = none → q.openSince = some s.now ∧ q.heldFlag = p.heldFlag ∧
            q.heldDeadline = if p.heldFlag then none else some (s.now + s.heldLimit (8 * e - 7 + i.val))))) ∧
        (x.up = false → q.command = p.command ∧
          (s.releaseDemand (8 * e - 7 + i.val) = true →
            q.state = .released ∧ q.check = some ⟨.release, some (s.now + 1500)⟩) ∧
          (s.releaseDemand (8 * e - 7 + i.val) = false →
            q.state = if rs[i].closed then .relockWait else .closeWait))) ∧
      (x.up = false → u.event.stands (.expander e) .expanderLost = false))) ∧
  (∀ (s : State) (d : Nat) (p0 : DoorPoint) (r : Reading), s.point d = some p0 →
    ∃ q, (s.scanPoint d r).point d = some q ∧ q.bonded = some r.bonded ∧ q.closed = some r.closed ∧ (∀ k, k ≠ d → (s.scanPoint d r).point k = s.point k) ∧
      (∀ k, p0.check = some ⟨k, none⟩ → q.check = some ⟨k, some (s.now + 1500)⟩ ∧ q.state = p0.state ∧
        q.command = p0.command ∧ (s.scanPoint d r).door.queue = s.door.queue) ∧
      ((∀ k, p0.check ≠ some ⟨k, none⟩) →
        (q.state = match p0.state, r.bonded, r.closed with
          | .released, _, _ => .released
          | .faultRelease, true, _ => .faultRelease
          | .faultRelease, false, _ => .released
          | .locking, _, false => .closeWait
          | .locking, true, true => .secure
          | .locking, false, true => .locking
          | .faultLock, true, true => .secure
          | .faultLock, _, _ => .faultLock
          | .secure, _, false => .forced
          | .secure, false, true => .faultLock
          | .secure, true, true => .secure
          | .forced, true, true => .secure
          | .forced, _, _ => .forced
          | .closeWait, _, true => .relockWait
          | .closeWait, _, false => .closeWait
          | .relockWait, _, _ => .relockWait
          | .noScan, _, _ => .noScan) ∧
        (q.command = if p0.state = .locking ∧ r.closed = false then .release else p0.command) ∧
        ((s.scanPoint d r).door.queue =
          if p0.state = .closeWait ∧ r.closed = true then s.door.queue ++ [d] else s.door.queue) ∧
        (p0.state = .released → r.bonded = false → q.check = none) ∧ (p0.state = .released → r.bonded = true → q.check = p0.check) ∧
        (p0.state = .faultRelease → r.bonded = false →
          (s.scanPoint d r).event.stands (.door d) .doorFaultRelease = false) ∧
        (p0.state = .secure → r.closed = true → r.bonded = false →
          (s.scanPoint d r).event.stands (.door d) .doorFaultLock = true) ∧
        (p0.state = .faultLock → r.closed = true → r.bonded = true →
          (s.scanPoint d r).event.stands (.door d) .doorFaultLock = false) ∧
        (p0.state = .secure → r.closed = false →
          s.raises (s.scanPoint d r) ⟨.trouble, .doorForced, s.now, .door d, (s.doorPlace d).map f1⟩) ∧
        (p0.state = .forced → r.closed = true → r.bonded = true →
          s.raises (s.scanPoint d r) ⟨.status, .doorSecured, s.now, .door d, (s.doorPlace d).map f1⟩)))

/-- A miss of an UP expander is counted; the third makes it LOST, enters EXPANDER-LOST and takes its points to NO-SCAN, released and out of the
re-lock queue. An expander that heard the scan holds the commands written, and releases every lock once it has heard none for 1 s (5.1; `heard` is
log 25). -/
def Obligations.MissedScansLoseTheExpander : Prop :=
  (∀ (s : State) (d : Nat) (x : Expander), at1 s.door.expanders (expanderOf d) = some x →
    (x.lastHeard = none → s.heldLock d = .release) ∧
    (∀ t, x.lastHeard = some t → (t + 1000 ≤ s.now → s.heldLock d = .release) ∧
      (s.now < t + 1000 → ∀ i : Fin 8, i.val = (d - 1) % 8 → s.heldLock d = x.held[i]))) ∧
  ∀ (s : State) (e : Nat) (x : Expander) (heard : Bool), at1 s.door.expanders e = some x →
    (s.regime.active.configured e = false → exec (.scanMiss e heard) s = .next s) ∧
    (s.regime.active.configured e = true →
      let y : Expander := if heard then { x with held := s.outputsFor e, lastHeard := some s.now } else x
      (x.up = false → exec (.scanMiss e heard) s = .next (s.beginArrival.setExpander e y)) ∧
      (x.up = true → x.misses < 2 →
        exec (.scanMiss e heard) s = .next (s.beginArrival.setExpander e { y with misses := x.misses + 1 })) ∧
      (x.up = true → 2 ≤ x.misses → ∃ u, exec (.scanMiss e heard) s = .next u ∧
        at1 u.door.expanders e = some { y with misses := 3, up := false } ∧
        (∀ k, k ≠ e → at1 u.door.expanders k = at1 s.door.expanders k) ∧
        u.event.stands (.expander e) .expanderLost = true ∧
        u.door.queue = s.door.queue.filter (fun d => !((span (8 * e - 7) (8 * e)).contains d && (s.point d).isSome)) ∧
        (∀ d, d ∉ span (8 * e - 7) (8 * e) → u.point d = s.point d) ∧
        (∀ d ∈ span (8 * e - 7) (8 * e), ∀ p, s.point d = some p →
          u.point d = some { p with
            state := .noScan, command := .release, check := none, heldDeadline := none, openSince := none } ∧
          u.event.stands (.door d) .doorFaultLock = false ∧ u.event.stands (.door d) .doorFaultRelease = false) ∧
        u = { s.beginArrival with door := u.door, event := u.event }))

/-- Pacing takes up to eight points from the head of the re-lock queue every 500 ms, a closed one to LOCKING and an open one to CLOSE-WAIT. An
expired release check of a bonded magnet is FAULT-RELEASE, an expired lock check FAULT-LOCK; a door open too long is flagged unless an incident
is open (5.3 to 5.6). -/
def Obligations.DoorDeadlines : Prop :=
  (∀ s : State, s.now < s.door.pacing → exec .pacingDeadline s = .next s) ∧
  (∀ s : State, s.door.pacing ≤ s.now → ∃ u, exec .pacingDeadline s = .next u ∧
    u.door.queue = s.door.queue.drop 8 ∧ u.door.pacing = s.door.pacing + 500 ∧ u.door.expanders = s.door.expanders ∧
    (∀ d, d ∉ s.door.queue.take 8 → u.point d = s.point d) ∧
    (∀ d ∈ s.door.queue.take 8, ∀ p, s.point d = some p → u.point d = some (
      if p.closed = some true then { p with command := .lock, state := .locking, check := some ⟨.lock, none⟩ }
      else { p with state := .closeWait })) ∧
    u = { s.beginArrival with door := u.door }) ∧
  (∀ (s : State) (d t : Nat) (p : DoorPoint), s.point d = some p → p.check = some ⟨.release, some t⟩ →
    (s.now < t → exec (.releaseBondCheck d) s = .next s) ∧
    (t ≤ s.now → p.bonded = some true → exec (.releaseBondCheck d) s =
      .next ((s.beginArrival.setPoint d { p with check := none, state := .faultRelease }).enterTrouble
        (.door d) .doorFaultRelease (some (s.doorPlace d)))) ∧
    (t ≤ s.now → p.bonded ≠ some true → exec (.releaseBondCheck d) s =
      .next (s.beginArrival.setPoint d { p with check := none }))) ∧
  (∀ (s : State) (d t : Nat) (p : DoorPoint), s.point d = some p → p.check = some ⟨.lock, some t⟩ →
    (s.now < t → exec (.lockBondCheck d) s = .next s) ∧
    (t ≤ s.now → exec (.lockBondCheck d) s =
      .next ((s.beginArrival.setPoint d { p with check := none, state := .faultLock }).enterTrouble
        (.door d) .doorFaultLock (some (s.doorPlace d))))) ∧
  (∀ (s : State) (d t : Nat) (p : DoorPoint), s.point d = some p → p.heldDeadline = some t →
    (s.now < t → exec (.heldOpenDeadline d) s = .next s) ∧
    (t ≤ s.now → s.fire.demand.freeze = true →
      exec (.heldOpenDeadline d) s = .next (s.beginArrival.setPoint d { p with heldDeadline := none })) ∧
    (∀ o, t ≤ s.now → s.fire.demand.freeze = false → p.openSince = some o →
      exec (.heldOpenDeadline d) s = .next { s.beginArrival.setPoint d { p with heldFlag := true, heldDeadline := none } with
        event := s.event.take ⟨.status, .heldOpen, s.now, .door d, [fTime o]⟩ }))

/-- RELEASE and LOCK write the host release of a point or of every point of a stair. The release is an OR of its causes: a door is freed when
its demand begins and goes to re-lock when it ends; LOCK of a covered door is refused (5.3, 5.7). -/
def Obligations.HostReleaseAndLock : Prop :=
  ∀ (s : State) (f : List Text),
    let freed (d : Nat) (p : DoorPoint) (u : State) : Prop :=
      (u.point d = some (if s.releaseDemand d then { p with hostRelease := true } else
        match p.state with
        | .secure | .forced | .faultLock | .locking =>
          { p with hostRelease := true, command := .release, state := .released, check := some ⟨.release, none⟩ }
        | .relockWait | .closeWait => { p with hostRelease := true, state := .released }
        | _ => { p with hostRelease := true })) ∧
      (s.releaseDemand d = false → p.state = .relockWait → d ∉ u.door.queue)
    let locked (d : Nat) (p : DoorPoint) (u : State) : Prop :=
      (u.point d = some (
        if p.hostRelease = true ∧ s.control.mode ≠ .starting ∧ (p.state = .released ∨ p.state = .faultRelease) then
          { p with hostRelease := false, check := none
                   state := if p.closed = some true then .relockWait else .closeWait }
        else { p with hostRelease := false })) ∧
      (p.hostRelease = true → s.control.mode ≠ .starting → p.state = .released → p.closed = some true → d ∈ u.door.queue)
    (s.takes (.release f) = true → f.head? ≠ some stairKeyword →
      (∀ k, fields1 (number 1 96) f = .error k → s.refuses (.release f) "FIELD" [fNum k]) ∧
      (∀ d, fields1 (number 1 96) f = .ok d →
        (s.point d = none → s.refuses (.release f) "NOT-FOUND" []) ∧
        (∀ p, s.point d = some p → ∃ u, exec (.release f) s = .next u ∧ freed d p u ∧
          u.line = s.lineWith "RELEASE" f ⟨[], s.okLine "RELEASE" [fNum d, fWord (u.doorStateName d)]⟩ ∧
          (∀ k, k ≠ d → u.point k = s.point k) ∧
          u = { s.beginArrival with line := u.line, door := u.door, event := u.event }))) ∧
    (s.takes (.lockDoor f) = true → f.head? ≠ some stairKeyword →
      (∀ k, fields1 (number 1 96) f = .error k → s.refuses (.lockDoor f) "FIELD" [fNum k]) ∧
      (∀ d, fields1 (number 1 96) f = .ok d →
        (s.point d = none → s.refuses (.lockDoor f) "NOT-FOUND" []) ∧
        (∀ p, s.point d = some p →
          (s.covered d = true → s.refuses (.lockDoor f) "INCIDENT" []) ∧
          (s.covered d = false → ∃ u, exec (.lockDoor f) s = .next u ∧ locked d p u ∧
            u.line = s.lineWith "LOCK" f ⟨[], s.okLine "LOCK" [fNum d, fWord (u.doorStateName d)]⟩ ∧
            (∀ k, k ≠ d → u.point k = s.point k) ∧
            u = { s.beginArrival with line := u.line, door := u.door, event := u.event })))) ∧
    (∀ cmd, cmd = Instr.releaseStair f ∨ (cmd = .release (stairKeyword :: f)) → s.takes cmd = true →
      (∀ k, stairFields (stairKeyword :: f) = .error k → s.refuses cmd "FIELD" [fNum k]) ∧
      (∀ st, stairFields (stairKeyword :: f) = .ok st →
        (s.stairPoints st = [] → s.refuses cmd "NOT-FOUND" []) ∧
        (s.stairPoints st ≠ [] → ∃ u, exec cmd s = .next u ∧
          (∀ d ∈ s.stairPoints st, ∀ p, s.point d = some p → freed d p u) ∧
          (∀ d, d ∉ s.stairPoints st → u.point d = s.point d) ∧
          u.line = s.lineWith "RELEASE" (stairKeyword :: f) ⟨[], s.okLine "RELEASE STAIR"
            [fWord st.name, fNum ((s.stairPoints st).filter fun d => !s.hostReleased d).length]⟩ ∧
          u = { s.beginArrival with line := u.line, door := u.door, event := u.event }))) ∧
    (∀ cmd, cmd = Instr.lockStair f ∨ (cmd = .lockDoor (stairKeyword :: f)) → s.takes cmd = true →
      (∀ k, stairFields (stairKeyword :: f) = .error k → s.refuses cmd "FIELD" [fNum k]) ∧
      (∀ st, stairFields (stairKeyword :: f) = .ok st →
        (s.stairPoints st = [] → s.refuses cmd "NOT-FOUND" []) ∧
        ((∃ d ∈ s.stairPoints st, s.covered d = true) → s.refuses cmd "INCIDENT" []) ∧
        (s.stairPoints st ≠ [] → (∀ d ∈ s.stairPoints st, s.covered d = false) → ∃ u, exec cmd s = .next u ∧
          (∀ d ∈ s.stairPoints st, ∀ p, s.point d = some p → locked d p u) ∧
          (∀ d, d ∉ s.stairPoints st → u.point d = s.point d) ∧
          u.line = s.lineWith "LOCK" (stairKeyword :: f) ⟨[], s.okLine "LOCK STAIR"
            [fWord st.name, fNum ((s.stairPoints st).filter s.hostReleased).length]⟩ ∧
          u = { s.beginArrival with line := u.line, door := u.door, event := u.event })))

/-! ### Announcements and the live page -/

/-- A step ends at its deadline, or at the last sample of its clip: the next step starts, or the next pass, or the run ends, EVAC and ALERT
going HELD-SILENT and TENANT completing its announcement, after which the head of its queue starts. A clip that cannot be played is substituted, and
CLIP-MISSING is raised the first time in the run (6.2, 6.4; that the last sample has been played once 8 samples for each whole millisecond reach
the clip's count is log 30, that a clip without a sample takes 1 ms is log 60, and a read begun while store freeze is true is not refused, log 53). -/
def Obligations.StepEndsAndTheNextStarts : Prop :=
  (∀ (s : State) (p : Prog) (d : Nat), (s.prog p).deadline = some d → s.now < d → exec (.stepDeadline p) s = .next s) ∧
  (∀ (s : State) (p : Prog) (clip bank start len : Nat), (s.prog p).read = some (.streaming clip bank start len) →
    8 * (s.now - start) < max (len / 2) 1 → exec (.clipReadEnd p) s = .next s) ∧
  (∀ (s : State) (p : Prog) (n k : Nat) (c : Instr), (s.prog p).step = some n → (s.prog p).pass = some k →
    (((∃ d, c = .stepDeadline p ∧ (s.prog p).deadline = some d ∧ d ≤ s.now)) ∨
     (∃ clip bank start len, c = .clipReadEnd p ∧ (s.prog p).read = some (.streaming clip bank start len) ∧
       max (len / 2) 1 ≤ 8 * (s.now - start))) →
    let sc := s.scriptOf p
    let store := match c with
      | .clipReadEnd _ => (s.endRead p).store
      | _ => s.store
    let r := s.prog p
    let ended := sc.steps.length ≤ n ∧ sc.repeats ≠ 0 ∧ sc.repeats ≤ k
    ∃ u, exec c s = .next u ∧ (∀ q, q ≠ p → u.prog q = s.prog q) ∧ u.live = s.live ∧ u.fire = s.fire ∧ u.door = s.door ∧
      u.lift = { s.lift with sent := [] } ∧ u.line = { s.line with sent := [] } ∧ u.control = s.control ∧
      u.regime = s.regime ∧ u.sense = s.sense ∧ u.event.troubles = s.event.troubles ∧
      (∀ st, sc.steps[n]? = some st → s.startedStep u r store p (n + 1) k st) ∧
      (∀ st, sc.steps.length ≤ n → (sc.repeats = 0 ∨ k < sc.repeats) → sc.steps[0]? = some st →
        s.startedStep u r store p 1 (min (k + 1) 255) st) ∧
      (ended → (p = .evac ∨ p = .alert) →
        u.prog p = { r with
          state := .heldSilent, step := none, pass := none, stepAt := none, deadline := none, read := none, voice := none, stepTone := none } ∧
        s.raises u ⟨.status, .programmeState, s.now, .prog (progNumber p), [fWord "HELD-SILENT", fNone]⟩) ∧
      (∀ a, ended → p = .tenant → s.ann.playing = some a →
        s.raises u ⟨.status, .tenantDone, s.now, .ticket a.ticket, [fWord "COMPLETED"]⟩ ∧
        (s.ann.queue = [] → u.ann.playing = none ∧ u.ann.queue = [] ∧ u.prog .tenant = { s.prog .tenant with
          state := .idle, claims := [], step := none, pass := none, stepAt := none, deadline := none, read := none
          voice := none, stepTone := none }) ∧
        (∀ h q st, s.ann.queue = h :: q → s.regime.active.presentAzones h.zones ≠ [] → h.script.steps[0]? = some st → st ≠ .gap 0 →
          u.ann.playing = some { h with startedAt := some s.now } ∧ u.ann.queue = q ∧ u.ann.tenant.state = .playing ∧
          u.ann.tenant.claims = s.regime.active.presentAzones h.zones ∧ u.ann.tenant.step = some 1 ∧ u.ann.tenant.pass = some 1 ∧
          s.raises u ⟨.status, .tenantStarted, s.now, .ticket h.ticket, [fNum (s.regime.active.presentAzones h.zones).length]⟩)))

/-- TENANT is judged by tenant stop, its zones and the queue; it starts at once or joins the tail of the queue. TENANT CANCEL ends a pending
announcement, or the playing one, after which the head of the queue starts (6.4). -/
def Obligations.TenantRequests : Prop :=
  ∀ (s : State) (f : List Text),
    let t := firstFree s.ann.nextTicket s.ann.tickets
    let cancelled (k : Nat) : Event := ⟨.status, .tenantDone, s.now, .ticket k, [fWord "CANCELLED"]⟩
    let idle : ProgRec := { s.prog .tenant with
      state := .idle, claims := [], step := none, pass := none, stepAt := none, deadline := none, read := none, voice := none, stepTone := none }
    (s.takes (.tenant f) = true →
      (∀ k, tenantFields f = .error k → s.refuses (.tenant f) "FIELD" [fNum k]) ∧
      (∀ zs sc, tenantFields f = .ok (zs, sc) →
        let present := s.regime.active.presentAzones zs
        let a : Announcement := ⟨t, zs, sc, s.now, none⟩
        (s.fire.demand.tenantStop = true → s.refuses (.tenant f) "INCIDENT" []) ∧
        (s.fire.demand.tenantStop = false → present = [] → s.refuses (.tenant f) "NOT-FOUND" []) ∧
        (s.fire.demand.tenantStop = false → present ≠ [] → s.ann.playing.isSome = true →
          (4 ≤ s.ann.queue.length → s.refuses (.tenant f) "FULL" []) ∧
          (s.ann.queue.length < 4 → exec (.tenant f) s = .next { s.answered "TENANT" f
              (s.okLine "TENANT" [fNum t, fNum (s.ann.queue.length + 1)]) with
            ann := { s.ann with nextTicket := nextOf t, queue := s.ann.queue ++ [a] } })) ∧
        (∀ st, s.fire.demand.tenantStop = false → present ≠ [] → s.ann.playing = none → sc.steps[0]? = some st →
          st ≠ .gap 0 → ∃ u, exec (.tenant f) s = .next u ∧
            u.line = s.lineWith "TENANT" f ⟨[], s.okLine "TENANT" [fNum t, fNum 0]⟩ ∧
            u.ann.playing = some { a with startedAt := some s.now } ∧ u.ann.queue = s.ann.queue ∧
            u.ann.nextTicket = nextOf t ∧ u.ann.evac = s.ann.evac ∧ u.ann.alert = s.ann.alert ∧ u.ann.live = s.ann.live ∧
            u.ann.tenant.state = .playing ∧ u.ann.tenant.claims = present ∧ u.ann.tenant.step = some 1 ∧
            u.ann.tenant.pass = some 1 ∧ u.ann.tenant.stepAt = some s.now ∧
            s.raises u ⟨.status, .tenantStarted, s.now, .ticket t, [fNum present.length]⟩ ∧
            u = { s.beginArrival with line := u.line, ann := u.ann, event := u.event, store := u.store }))) ∧
    (s.takes (.tenantCancel f) = true →
      (∀ k, fields1 (number 1 255) f = .error k → s.refuses (.tenantCancel f) "FIELD" [fNum k]) ∧
      (∀ k, fields1 (number 1 255) f = .ok k →
        let reply := s.okLine "TENANT CANCEL" [fNum k]
        (k ∉ s.ann.tickets → s.refuses (.tenantCancel f) "NOT-FOUND" []) ∧
        ((∀ a, s.ann.playing = some a → a.ticket ≠ k) → k ∈ s.ann.queue.map Announcement.ticket →
          exec (.tenantCancel f) s = .next { s.answered "TENANT CANCEL" f reply with
            ann := { s.ann with queue := s.ann.queue.filter fun a => decide (a.ticket ≠ k) }
            event := s.event.take (cancelled k) }) ∧
        (∀ a, s.ann.playing = some a → a.ticket = k → ∃ u, exec (.tenantCancel f) s = .next u ∧
          u.line = s.lineWith "TENANT CANCEL" f ⟨[], reply⟩ ∧ s.raises u (cancelled k) ∧
          u.ann.evac = s.ann.evac ∧ u.ann.alert = s.ann.alert ∧ u.ann.live = s.ann.live ∧
          (s.ann.queue = [] → u.ann.playing = none ∧ u.ann.queue = [] ∧ u.ann.tenant = idle) ∧
          (∀ h q st, s.ann.queue = h :: q → s.regime.active.presentAzones h.zones ≠ [] → h.script.steps[0]? = some st →
            st ≠ .gap 0 → u.ann.playing = some { h with startedAt := some s.now } ∧ u.ann.queue = q))))

/-- LIVE START, LIVE ZONES and LIVE STOP: their refusals, the live record each leaves, and the claim set handed on: LIVE is PLAYING and holds every
zone it claims, is IDLE with none, and every other zone has its right holder (7.3, 7.5, 7.6). LIVE is never HELD-SILENT: AudioZonesKeepTheRightHolder. -/
def Obligations.LiveRequests : Prop :=
  ∀ (s : State) (f : List Text), s.ann.live.state ≠ .heldSilent →
    let held (u : State) (zs : List Nat) : Prop := u.ann.live.claims = s.regime.active.presentAzones zs ∧
      u.ann.live.state = (if s.regime.active.presentAzones zs = [] then .idle else .playing) ∧
      (∀ a ∈ s.regime.active.presentAzones zs, 1 ≤ a → a ≤ 48 → ∃ z, at1 u.ann.zones a = some z ∧ z.holder = some .live) ∧
      (∀ a z, at1 u.ann.zones a = some z → z.holder = u.rightHolder a) ∧
      u.ann.evac = s.ann.evac ∧ u.ann.alert = s.ann.alert ∧ u.ann.tenant = s.ann.tenant
    (s.takes (.liveStart f) = true →
      (∀ k, fields1 azoneSet f = .error k → s.refuses (.liveStart f) "FIELD" [fNum k]) ∧
      (∀ zs, fields1 azoneSet f = .ok zs →
        (s.live.state ≠ .off → s.refuses (.liveStart f) "STATE" []) ∧
        (s.live.state = .off → s.regime.active.presentAzones zs = [] → s.refuses (.liveStart f) "NOT-FOUND" []) ∧
        (s.live.state = .off → s.regime.active.presentAzones zs ≠ [] → ∃ u, exec (.liveStart f) s = .next u ∧
          u.line = s.lineWith "LIVE START" f
            ⟨[], s.okLine "LIVE START" [fNum (s.regime.active.presentAzones zs).length]⟩ ∧
          u.live = { LivePage.cold with state := .prefill, zones := some zs, startedAt := some s.now } ∧
          s.raises u ⟨.status, .liveState, s.now, .live, [fWord "PREFILL", fNone]⟩ ∧ held u zs))) ∧
    (s.takes (.liveZones f) = true →
      (∀ k, fields1 azoneSet f = .error k → s.refuses (.liveZones f) "FIELD" [fNum k]) ∧
      (∀ zs, fields1 azoneSet f = .ok zs →
        ((s.live.state = .off ∨ s.live.state = .killed) → s.refuses (.liveZones f) "STATE" []) ∧
        ((s.live.state = .prefill ∨ s.live.state = .running) →
          (s.regime.active.presentAzones zs = [] → s.refuses (.liveZones f) "NOT-FOUND" []) ∧
          (s.regime.active.presentAzones zs ≠ [] → ∃ u, exec (.liveZones f) s = .next u ∧
            u.line = s.lineWith "LIVE ZONES" f
              ⟨[], s.okLine "LIVE ZONES" [fNum (s.regime.active.presentAzones zs).length]⟩ ∧
            u.live = { s.live with zones := some zs } ∧ u.event = s.event ∧ held u zs)))) ∧
    (s.takes (.liveStop f) = true →
      (f ≠ [] → s.refuses (.liveStop f) "FIELD" [fNum 1]) ∧
      (f = [] → s.live.state = .off →
        exec (.liveStop f) s = .next (s.answered "LIVE STOP" f (s.okLine "LIVE STOP" [])).settleHolders) ∧
      (f = [] → s.live.state ≠ .off → ∃ u, exec (.liveStop f) s = .next u ∧
        u.line = s.lineWith "LIVE STOP" f ⟨[], s.okLine "LIVE STOP" []⟩ ∧
        u.live = { LivePage.cold with gathering := s.live.gathering } ∧ u.event.stands .live .liveKilled = false ∧
        s.raises u ⟨.status, .liveState, s.now, .live, [fWord "OFF", fNone]⟩ ∧ held u []))

/-- Samples gather into blocks of 80. PREFILL with 12 blocks becomes RUNNING; the playout deadline plays the next block, or finds none and
resyncs; a block beyond 32 leaves the last 12 and resyncs; a close resync with live kill on kills the page (7.1 to 7.4). -/
def Obligations.LiveBlocksPlayoutAndResync : Prop :=
  ∀ s : State,
    let history := if s.live.history.length = 2 then s.live.history.tail ++ [s.now] else s.live.history ++ [s.now]
    let close := ∃ t, s.live.history.getLast? = some t ∧ s.now ≤ t + 2000
    let kills := close ∧ s.regime.active.options.liveKill = true
    let counted (l : LivePage) : LivePage := { l with resyncs := min (s.live.resyncs + 1) 65535, history := history }
    let killed (l : LivePage) (u : State) : Prop :=
      u.live = { counted l with state := .killed, fifo := [], playing := none, playout := none, zones := none } ∧
      u.event.stands .live .liveKilled = true ∧ u.ann.live.claims = [] ∧
      s.raises u ⟨.status, .liveState, s.now, .live, [fWord "KILLED", fNum (min (s.live.resyncs + 1) 65535)]⟩
    (∀ xs : List Sample, s.live.gathering.length + xs.length < 80 → exec (.blockArrival xs) s =
      .next (State.settleHolders { s.beginArrival with live := { s.live with gathering := s.live.gathering ++ xs } })) ∧
    (∀ xs : List Sample, s.live.gathering.length < 80 → s.live.gathering.length + xs.length = 80 →
      let b : Block := s.live.gathering ++ xs
      let g : LivePage := { s.live with gathering := [] }
      ((s.live.state = .off ∨ s.live.state = .killed) →
        exec (.blockArrival xs) s = .next (State.settleHolders { s.beginArrival with live := g })) ∧
      (s.live.state = .prefill → s.live.fifo.length < 11 → exec (.blockArrival xs) s =
        .next (State.settleHolders { s.beginArrival with live := { g with fifo := s.live.fifo ++ [b] } })) ∧
      (s.live.state = .prefill → s.live.fifo.length = 11 → ∃ u, exec (.blockArrival xs) s = .next u ∧
        u.live = { g with
          state := .running, playing := s.live.fifo.head?, fifo := s.live.fifo.tail ++ [b], playout := some (s.now + 10) } ∧
        (s.live.resyncs = 0 → u.event = s.event.take ⟨.status, .liveState, s.now, .live, [fWord "RUNNING", fNone]⟩) ∧
        (s.live.resyncs ≠ 0 → u.event = s.event) ∧ u = { s.beginArrival with live := u.live, event := u.event, ann := u.ann }) ∧
      (s.live.state = .running → s.live.fifo.length < 32 → exec (.blockArrival xs) s =
        .next (State.settleHolders { s.beginArrival with live := { g with fifo := s.live.fifo ++ [b] } })) ∧
      (s.live.state = .running → s.live.fifo.length = 32 → s.live.history.length ≤ 2 → ∃ u, exec (.blockArrival xs) s = .next u ∧
        (¬kills → u.live = counted { g with fifo := s.live.fifo.drop 21 ++ [b] } ∧ u.event = s.event) ∧
        (kills → killed g u))) ∧
    (∀ d, s.live.playout = some d →
      (s.now < d → exec .playoutDeadline s = .next s) ∧
      (∀ b q, d ≤ s.now → s.live.fifo = b :: q → exec .playoutDeadline s = .next { s.beginArrival with
        live := { s.live with playing := some b, fifo := q, playout := some (d + 10) } }) ∧
      (d ≤ s.now → s.live.fifo = [] → s.live.history.length ≤ 2 → ∃ u, exec .playoutDeadline s = .next u ∧
        (¬kills → u.live = counted { s.live with state := .prefill, playing := none, playout := none } ∧ u.event = s.event) ∧
        (kills → killed s.live u)))

/-! ### The clip store -/

/-- Every store request passes its gates in order: fields, MAINTENANCE, an engine that is READY but for ABORT; each refusal clears the permit
and changes nothing else. PERMIT sets the permit and LOCKBLK a lock; ABORT is judged by the engine (8.3 to 8.5; the order in which WRITE and COMMIT
judge fields that bear on one another is log 34, and that ABORT leaves the bytes of the block it stops erasing as they were is log 58). -/
def Obligations.StoreGatesPermitAndLock : Prop :=
  ∀ (s : State) (f : List Text),
    (∀ c, c ∈ [Instr.erase f, .write f, .commit f, .lockblk f, .permit f, .abort f] → s.takes c = true →
      let parsed : Except Nat Unit := match c with
        | .erase _ | .lockblk _ => (blockFields f).map fun _ => ()
        | .write _ => (writeFields f).map fun _ => ()
        | .commit _ => (commitFields f).map fun _ => ()
        | _ => fields0 f
      (∀ k, parsed = .error k → s.storeRefuses c "FIELD" [fNum k]) ∧
      (parsed = .ok () → s.control.mode ≠ .maintenance → s.storeRefuses c "NOT-MAINTENANCE" []) ∧
      (parsed = .ok () → s.control.mode = .maintenance → c ≠ .abort f → s.store.engine ≠ .ready →
        s.storeRefuses c "BUSY" [])) ∧
    (s.control.mode = .maintenance → s.store.engine = .ready →
      (f = [] → s.takes (.permit f) = true →
        exec (.permit f) s = .next { s.answered "PERMIT" f (s.okLine "PERMIT" []) with
          store := { s.store with lastError := .none, permit := true } }) ∧
      (∀ bank block b, blockFields f = .ok (bank, block) → s.takes (.lockblk f) = true → s.store.block bank block = some b →
        exec (.lockblk f) s = .next { s.answered "LOCKBLK" f (s.okLine "LOCKBLK" [fNum bank, fNum block]) with
          store := { s.store.putBlock bank block { b with locked := true } with lastError := .none } })) ∧
    (f = [] → s.control.mode = .maintenance → s.takes (.abort f) = true →
      (s.store.engine = .ready → s.storeRefuses (.abort f) "STATE" []) ∧
      (∀ w, s.store.engine = .writing w → s.storeRefuses (.abort f) "BUSY" []) ∧
      (∀ job, (s.store.engine = .erasing job ∨ ∃ cause settle, s.store.engine = .suspended job cause settle) →
        ∃ u, exec (.abort f) s = .next u ∧
          u.line = s.lineWith "ABORT" f ⟨[], s.okLine "ABORT" [fNum job.bank, fNum job.block]⟩ ∧
          u.store = { s.store with engine := .ready, permit := false, lastError := .aborted, reads := u.store.reads } ∧
          u.event = s.event.take ⟨.status, .eraseAborted, s.now, .store, [fNum job.bank, fNum job.block]⟩ ∧
          (∀ r ∈ u.store.reads, r.bank = job.bank → r.stage ≠ .waitingSettle) ∧
          u = { s.beginArrival with line := u.line, store := u.store, event := u.event, ann := u.ann }))

/-- ERASE of a locked block needs the permit. It drops the clips that touch the block, whose reads in progress fail (CLIP-MISSING, READ-FAILED), makes
the block UNKNOWN and starts ERASING, or starts suspended while a read of the bank is in progress. A good end leaves the block blank, SOUND and
UNLOCKED; a failed one leaves it UNKNOWN (its bytes as they were: log 58). Its least erasing time is 600 ms (log 16); the settle deadline lets
waiting reads go on (6.2, 8.2, 8.4, 8.7). -/
def Obligations.EraseRunsAndEnds : Prop :=
  (∀ (s : State) (f : List Text) (bank block : Nat) (b : StoreBlock), s.takes (.erase f) = true →
    blockFields f = .ok (bank, block) → s.control.mode = .maintenance → s.store.engine = .ready →
    s.store.block bank block = some b →
    let touching := s.store.directory.filter fun e => e.touches bank block
    (b.locked = true → s.store.permit = false → s.storeRefuses (.erase f) "LOCKED" []) ∧
    ((b.locked = false ∨ s.store.permit = true) → ∃ u, exec (.erase f) s = .next u ∧
      u.line = s.lineWith "ERASE" f ⟨[], s.okLine "ERASE" [fNum bank, fNum block, fNum touching.length]⟩ ∧
      u.store.blocks = put1 s.store.blocks (blockNumber bank block) { b with sound := false } ∧
      u.store.bytes = s.store.bytes ∧ u.store.directory = s.store.directory.filter (fun e => !e.touches bank block) ∧
      u.store.lastError = .none ∧
      (∀ r ∈ s.store.reads, r.clip ∈ touching.map DirEntry.id → r.clip ∉ (s.prog r.prog).missing →
        s.raises u (s.clipMissing r.prog r.clip "READ-FAILED" (s.prog r.prog).pass (s.prog r.prog).step)) ∧
      ((∀ r ∈ s.store.reads, r.bank ≠ bank) → u.store.permit = s.store.permit ∧ u.store.reads = s.store.reads.filter
          (fun r => !s.store.reads.any fun x => x.prog == r.prog && (touching.map DirEntry.id).contains x.clip) ∧
        u.store.engine = .erasing ⟨bank, block, s.now, 0, 0, s.now⟩) ∧
      (∀ r ∈ s.store.reads, r.bank = bank → (∀ x ∈ s.store.reads, x.prog = r.prog → x.clip ∉ touching.map DirEntry.id) →
        u.store.permit = false ∧ u.store.engine = .suspended ⟨bank, block, s.now, 0, 0, s.now⟩ .start none ∧
        s.raises u ⟨.status, .eraseSuspended, s.now, .store, [fNum bank, fNum block, fWord "START"]⟩) ∧
      u = { s.beginArrival with line := u.line, store := u.store, event := u.event, ann := u.ann })) ∧
  (∀ (s : State) (job : EraseJob) (good : Bool), s.store.engine = .erasing job →
    (job.erased + (s.now - job.since) < 600 → exec (.eraseEnd good) s = .next s) ∧
    (600 ≤ job.erased + (s.now - job.since) → ∃ u, exec (.eraseEnd good) s = .next u ∧
      u.store.engine = .ready ∧ u.store.permit = false ∧ u.store.directory = s.store.directory ∧
      u.store.reads = s.store.reads ∧ u = { s.beginArrival with store := u.store, event := u.event } ∧
      (good = true →
        u.store.blocks = put1 s.store.blocks (blockNumber job.bank job.block) { locked := false, sound := true, header := none } ∧
        u.store.lastError = s.store.lastError ∧
        u.event = s.event.take ⟨.status, .eraseDone, s.now, .store, [fNum job.bank, fNum job.block]⟩ ∧
        (s.store.bytes.wf erasedByte = true → ∀ a, u.store.bytes.read erasedByte a =
          if blockBase job.bank job.block ≤ a ∧ a < blockBase job.bank job.block + 131072 then 0xFF
          else s.store.bytes.read erasedByte a)) ∧
      (good = false → u.store.blocks = s.store.blocks ∧ u.store.bytes = s.store.bytes ∧ u.store.lastError = .eraseFailed ∧
        u.event = s.event.take ⟨.trouble, .eraseFailed, s.now, .store, [fNum job.bank, fNum job.block]⟩))) ∧
  (∀ (s : State) (job : EraseJob) (cause : SuspendCause) (t : Nat), s.store.engine = .suspended job cause (some t) →
    (s.now < t → exec .storeSettleDeadline s = .next s) ∧
    (t ≤ s.now → ∃ u, exec .storeSettleDeadline s = .next u ∧
      u.store = { s.store with engine := .suspended job cause none, reads := u.store.reads } ∧
      (∀ r ∈ u.store.reads, r.bank = job.bank → r.stage ≠ .waitingSettle) ∧
      (∀ p clip bank r, (s.prog p).read = some (.waiting clip bank) → r ∈ s.store.reads → r.prog = p → r.bank = job.bank →
        r.stage = .waitingSettle → ∃ len, (u.prog p).read = some (.streaming clip bank s.now len)) ∧
      u = { s.beginArrival with store := u.store, ann := u.ann }))

/-- WRITE and COMMIT are judged in the spec's order and start the engine; a write that completes well changes exactly its bytes, and leaves a clip
header whose blank bytes it writes as FFh what it is; a commit adds its clip; one that fails makes the block UNKNOWN and drops the clips that
touch it; however it ends, no read is held for it any longer (8.5, 8.6; when the bytes land is log 36, and that a header the part wrote is kept as
its fields, no layout being given, is log 8). -/
def Obligations.WriteAndCommit : Prop :=
  (∀ (s : State) (f : List Text) (bank block offset : Nat) (bytes : List Byte), s.takes (.write f) = true →
    writeFields f = .ok (bank, block, offset, bytes) → s.control.mode = .maintenance → s.store.engine = .ready →
    let start := (block - 1) * 131072 + offset
    let bad := s.store.sound bank block = false ∨ ∃ e ∈ s.store.directory, e.bank = bank ∧
      start < (e.first - 1) * 131072 + 16 + e.length ∧ (e.first - 1) * 131072 < start + bytes.length
    let blank := ∀ b ∈ s.store.readBytes (blockBase bank block + offset) bytes.length, b = 0xFF
    (s.store.locked bank block = true → s.storeRefuses (.write f) "LOCKED" []) ∧
    (s.store.locked bank block = false → bad → s.storeRefuses (.write f) "STATE" []) ∧
    (s.store.locked bank block = false → ¬bad → ¬blank → s.storeRefuses (.write f) "NOT-BLANK" []) ∧
    (s.store.locked bank block = false → ¬bad → blank → exec (.write f) s = .next { s.answered "WRITE" f
        (s.okLine "WRITE" [fNum bank, fNum block, fNum offset, fNum bytes.length]) with
      store := { s.store with lastError := .none, engine := .writing (.data bank block offset bytes) } })) ∧
  (∀ (s : State) (f : List Text) (e : DirEntry), s.takes (.commit f) = true → commitFields f = .ok e →
    s.control.mode = .maintenance → s.store.engine = .ready →
    let bad := ∃ k ∈ touched e.first e.length, s.store.sound e.bank k = false ∨ ∃ x ∈ s.store.directory, x.touches e.bank k = true
    let crcGood := crc32 (s.store.dataBytes e.bank e.first e.length) = e.crc
    ((s.store.find e.id).isSome = true → s.storeRefuses (.commit f) "DUPLICATE" []) ∧
    (s.store.find e.id = none →
      (s.store.locked e.bank e.first = true → s.storeRefuses (.commit f) "LOCKED" []) ∧
      (s.store.locked e.bank e.first = false →
        (bad → s.storeRefuses (.commit f) "STATE" []) ∧
        (¬bad → s.store.headBlank e.bank e.first = false → s.storeRefuses (.commit f) "NOT-BLANK" []) ∧
        (¬bad → s.store.headBlank e.bank e.first = true → ¬crcGood → s.storeRefuses (.commit f) "CRC" []) ∧
        (¬bad → s.store.headBlank e.bank e.first = true → crcGood →
          exec (.commit f) s = .next { s.answered "COMMIT" f (s.okLine "COMMIT" [fNum e.id]) with
            store := { s.store with lastError := .none, engine := .writing (.header e) } })))) ∧
  (∀ (s : State) (bank block offset : Nat) (bytes : List Byte), s.store.engine = .writing (.data bank block offset bytes) →
    let base := blockBase bank block + offset
    (s.store.bytes.wf erasedByte = true → ∃ u, exec (.writeComplete true) s = .next u ∧
        (∀ i, i < bytes.length → u.store.bytes.read erasedByte (base + i) = bytes.getD i 0) ∧
        (∀ a, (a < base ∨ base + bytes.length ≤ a) →
          u.store.bytes.read erasedByte a = s.store.bytes.read erasedByte a) ∧
        ((∀ i, i < bytes.length → offset + i < 16 → s.store.bytes.read erasedByte (base + i) = 0xFF ∧ bytes.getD i 0 = 0xFF) →
          u.store.headerOf bank block = s.store.headerOf bank block) ∧
        u.store = { s.store with bytes := u.store.bytes, engine := .ready, reads := u.store.reads } ∧
        (∀ r ∈ u.store.reads, r.stage ≠ .waitingWrite) ∧
        u = { s.beginArrival with store := u.store, ann := u.ann }) ∧
    (∀ b, s.store.block bank block = some b → ∃ u, exec (.writeComplete false) s = .next u ∧
      u.store.blocks = put1 s.store.blocks (blockNumber bank block) { b with sound := false } ∧
      u.store.bytes = s.store.bytes ∧ u.store.directory = s.store.directory.filter (fun e => !e.touches bank block) ∧
      u.store.lastError = .writeFailed ∧ u.store.engine = .ready ∧
      s.raises u ⟨.trouble, .writeFailed, s.now, .store, [fNum bank, fNum block, fNum offset]⟩ ∧
      (∀ r ∈ u.store.reads, r.stage ≠ .waitingWrite) ∧
      u = { s.beginArrival with store := u.store, event := u.event, ann := u.ann })) ∧
  (∀ (s : State) (e : DirEntry) (b : StoreBlock), s.store.engine = .writing (.header e) →
    s.store.block e.bank e.first = some b →
    (∃ u, exec (.writeComplete true) s = .next u ∧
      u.store.blocks = put1 s.store.blocks (blockNumber e.bank e.first) { b with header := some ⟨e.id, e.length, e.crc⟩ } ∧
      u.store.bytes = s.store.bytes ∧
      ((∀ x ∈ s.store.directory, x.id ≠ e.id) → u.store.find e.id = some e ∧
        ∀ id, id ≠ e.id → u.store.find id = s.store.find id) ∧
      u.store.engine = .ready ∧
      u.event = s.event.take ⟨.status, .clipCommitted, s.now, .store, [fNum e.id, fNum e.bank, fNum e.first]⟩ ∧
      (∀ r ∈ u.store.reads, r.stage ≠ .waitingWrite) ∧
      u = { s.beginArrival with store := u.store, event := u.event, ann := u.ann }) ∧
    (∃ u, exec (.writeComplete false) s = .next u ∧
      u.store.blocks = put1 s.store.blocks (blockNumber e.bank e.first) { b with sound := false } ∧
      u.store.directory = s.store.directory.filter (fun x => !x.touches e.bank e.first) ∧
      u.store.lastError = .writeFailed ∧ u.store.engine = .ready ∧
      s.raises u ⟨.trouble, .writeFailed, s.now, .store, [fNum e.bank, fNum e.first, fWord "HEADER"]⟩ ∧
      (∀ r ∈ u.store.reads, r.stage ≠ .waitingWrite)))

/-! ### Headline results -/

/-- Under the audio law every zone's holder is the highest-priority programme that claims it and is not IDLE, and every step keeps it. A command
but a cold start and REGIME ACTIVATE makes one recomputation: a zone whose holder changes keeps the old one as previous, pre-empted when that
programme still claims it and is not IDLE, from now; any other zone keeps its record. An output carries silence without a holder; for LIVE, while
RUNNING, the eight samples of the playing block that fall in this millisecond of its 10 ms; for a script programme its tone by its cadence, the
samples of its clip, or silence (6.1 to 6.3, 7.3; frequencies stand for a waveform that is not given, log 32). -/
def Obligations.AudioZonesKeepTheRightHolder : Prop :=
  (∀ (s : State) (a : Nat) (p : Prog), s.rightHolder a = some p ↔ (s.regime.active.azonePresent a = true ∧
    (s.prog p).state ≠ .idle ∧ a ∈ (s.prog p).claims ∧
    ∀ q, progNumber p < progNumber q → (s.prog q).state = .idle ∨ a ∉ (s.prog q).claims)) ∧
  (∀ s t : State, s.audioLaw → step s = .next t → t.audioLaw) ∧
  (∀ (s t : State) (c : Instr), s.audioLaw → c ≠ .coldStart → (∀ f, c ≠ .regimeActivate f) → exec c s = .next t →
    ∀ a z, at1 s.ann.zones a = some z → ∃ y, at1 t.ann.zones a = some y ∧ (y.holder = z.holder → y = z) ∧
      (y.holder ≠ z.holder → y.previous = z.holder ∧ y.heldSince = s.now ∧
        (y.preempted = true ↔ ∃ p, z.holder = some p ∧ (t.prog p).state ≠ .idle ∧ a ∈ (t.prog p).claims))) ∧
  (∀ (s : State) (a : Nat) (z : AudioZone), at1 s.ann.zones a = some z →
    (z.holder = none → s.zoneOutput a = .silence) ∧
    (∀ b d, z.holder = some .live → s.live.state = .running → s.live.playing = some b → b.length = 80 → s.live.playout = some d →
      (s.now < d → d ≤ s.now + 10 → s.zoneOutput a = .samples ((List.range 8).map fun i => b.getD (8 * (s.now + 10 - d) + i) 0)) ∧
      (d ≤ s.now → s.zoneOutput a = .silence)) ∧
    (z.holder = some .live → s.live.state ≠ .running ∨ s.live.playing = none → s.zoneOutput a = .silence) ∧
    (∀ p, p ≠ .live → z.holder = some p →
      ((s.prog p).state ≠ .playing → s.zoneOutput a = .silence) ∧
      (∀ t since d, (s.prog p).state = .playing → (s.prog p).voice = some (t, since) → (s.prog p).deadline = some d → s.now < d →
        let on := (s.now - since) % (t.onMs + t.offMs) < t.onMs
        (on → t.freq1 ≠ 0 → t.freq2 ≠ 0 → s.zoneOutput a = .tones [t.freq1, t.freq2]) ∧
        (on → t.freq1 ≠ 0 → t.freq2 = 0 → s.zoneOutput a = .tones [t.freq1]) ∧
        (on → t.freq1 = 0 → t.freq2 ≠ 0 → s.zoneOutput a = .tones [t.freq2]) ∧
        (¬on ∨ (t.freq1 = 0 ∧ t.freq2 = 0) → s.zoneOutput a = .silence)) ∧
      (∀ id bank start len e, (s.prog p).state = .playing → (s.prog p).voice = none →
        (s.prog p).read = some (.streaming id bank start len) → s.store.find id = some e →
        let data := s.store.dataBytes e.bank e.first e.length
        let from0 := 8 * (s.now - start)
        (2 * from0 + 16 ≤ data.length → s.zoneOutput a = .samples ((List.range 8).map fun i =>
          data.getD (2 * (from0 + i)) 0 ++ data.getD (2 * (from0 + i) + 1) 0)) ∧
        (data.length < 2 * from0 + 2 → s.zoneOutput a = .silence)) ∧
      ((s.prog p).voice = none → (∀ id bank start len, (s.prog p).read ≠ some (.streaming id bank start len)) →
        s.zoneOutput a = .silence)))

/-- Every step keeps the laws of the event queue, the trouble list, the input buffer and the byte stores. -/
def Obligations.EveryStepKeepsTheRecordLaws : Prop :=
  ∀ s t : State, step s = .next t →
    (s.eventLaw = true → t.eventLaw = true) ∧ (s.troubleLaw = true → t.troubleLaw = true) ∧
    (s.bufferLaw = true → t.bufferLaw = true) ∧ (s.memoryLaw = true → t.memoryLaw = true)

/-- Every step keeps the door law: a door point whose release demand holds is never commanded to lock, and the re-lock queue holds exactly the
points in RELOCK-WAIT, each once, none under release demand. -/
def Obligations.EveryStepKeepsTheDoorLaw : Prop :=
  ∀ s t : State, s.doorLaw → step s = .next t → t.doorLaw

/-- Every step keeps the incident law and the law of what an open incident holds: each ALARM zone is in exactly one incident, no incident group has two,
the demand is that of the open incidents, and while one is open no tenant announcement plays, the engine is not ERASING and the mode is not
MAINTENANCE. An incident that stays open never falls from EVACUATE (3.6, 3.7, 3.10, 6.4, 8.7). -/
def Obligations.EveryStepKeepsTheIncidentLaws : Prop :=
  ∀ s t : State, s.incidentLaw → s.holdLaw → step s = .next t → t.incidentLaw ∧ t.holdLaw ∧
    ∀ id i j, s.incident id = some i → t.incident id = some j → i.severity = .evacuate → j.severity = .evacuate

/-- Every step keeps the cadence meter law, the lift law and the clip store law; and a byte of the banks that a step changes lies in the block being
erased or in an UNLOCKED block being written (2.4, 4.4, 4.7, 4.8, 8.1, 8.5, 8.7; the lift law's clause on a late arrival report is log 61). -/
def Obligations.EveryStepKeepsTheMeterLiftAndStoreLaws : Prop :=
  ∀ s t : State, step s = .next t →
    (s.meterLaw → t.meterLaw) ∧ (s.liftLaw → t.liftLaw) ∧ (s.storeLaw → t.storeLaw) ∧
    (s.storeLaw → s.store.bytes.wf erasedByte = true → ∀ a, t.store.bytes.read erasedByte a ≠ s.store.bytes.read erasedByte a →
      s.mayChange a)

/-- The laws hold at reset; and what the door law says of one point. -/
def Obligations.LawsHoldAtReset : Prop :=
  State.reset.eventLaw = true ∧ State.reset.troubleLaw = true ∧ State.reset.bufferLaw = true ∧
  State.reset.memoryLaw = true ∧ State.reset.doorLaw ∧ State.reset.incidentLaw ∧ State.reset.holdLaw ∧
  State.reset.meterLaw ∧ State.reset.liftLaw ∧ State.reset.storeLaw ∧ State.reset.audioLaw ∧
  (∀ s : State, s.doorLaw → ∀ d p, s.point d = some p →
    (s.releaseDemand d = true → p.command = .release ∧ d ∉ s.door.queue) ∧ (d ∈ s.door.queue ↔ p.state = .relockWait)) ∧
  (∀ s : State, s.doorLaw → s.door.queue.Nodup ∧ s.door.queue.length ≤ 96)
end

