-- ==== Sys2Proof/Laws/Frame.lean ====
section
/-! SUPPORT. Which units an operation may touch, as relations between the state before and after, each reflexive, transitive and kept
by a fold. The frame lemmas of the operations are stated with them and read by simp as one equation for each unit. -/

namespace Sys2Proof.Machine

/-- A relation that every act keeps is kept by a fold of acts. -/
theorem foldl_rel {α : Type} {R : State → State → Prop} (refl : ∀ s, R s s)
    (trans : ∀ s t u, R s t → R t u → R s u) {f : State → α → State} (h : ∀ s a, R s (f s a)) :
    ∀ (l : List α) (s : State), R s (l.foldl f s)
  | [], s => refl s
  | a :: l, s => trans _ _ _ (h s a) (foldl_rel refl trans h l (f s a))

/-- At most the event unit may differ. -/
abbrev OnlyEvent (s t : State) : Prop :=
  t.line = s.line ∧ t.control = s.control ∧ t.regime = s.regime ∧ t.sense = s.sense ∧ t.fire = s.fire ∧
  t.lift = s.lift ∧ t.door = s.door ∧ t.ann = s.ann ∧ t.live = s.live ∧ t.store = s.store ∧
  t.pending = s.pending ∧ t.freeCount = s.freeCount

theorem OnlyEvent.refl (s : State) : OnlyEvent s s := by simp [OnlyEvent]

theorem OnlyEvent.trans {s t u : State} (h : OnlyEvent s t) (k : OnlyEvent t u) : OnlyEvent s u := by simp_all [OnlyEvent]

theorem OnlyEvent.fold {α : Type} {f : State → α → State} (h : ∀ s a, OnlyEvent s (f s a)) (l : List α) (s : State) :
    OnlyEvent s (l.foldl f s) := foldl_rel OnlyEvent.refl (fun _ _ _ => OnlyEvent.trans) h l s

/-- At most the line interface may differ. -/
abbrev OnlyLine (s t : State) : Prop :=
  t.control = s.control ∧ t.regime = s.regime ∧ t.sense = s.sense ∧ t.fire = s.fire ∧ t.lift = s.lift ∧
  t.door = s.door ∧ t.ann = s.ann ∧ t.live = s.live ∧ t.store = s.store ∧ t.event = s.event ∧
  t.pending = s.pending ∧ t.freeCount = s.freeCount

theorem OnlyLine.refl (s : State) : OnlyLine s s := by simp [OnlyLine]

theorem OnlyLine.trans {s t u : State} (h : OnlyLine s t) (k : OnlyLine t u) : OnlyLine s u := by simp_all [OnlyLine]

theorem OnlyLine.fold {α : Type} {f : State → α → State} (h : ∀ s a, OnlyLine s (f s a)) (l : List α) (s : State) :
    OnlyLine s (l.foldl f s) := foldl_rel OnlyLine.refl (fun _ _ _ => OnlyLine.trans) h l s

/-- At most the line interface and what the lift lines sent may differ. -/
abbrev OnlyLineSent (s t : State) : Prop :=
  t.control = s.control ∧ t.regime = s.regime ∧ t.sense = s.sense ∧ t.fire = s.fire ∧ t.door = s.door ∧
  t.ann = s.ann ∧ t.live = s.live ∧ t.store = s.store ∧ t.event = s.event ∧ t.pending = s.pending ∧
  t.freeCount = s.freeCount

theorem OnlyLineSent.refl (s : State) : OnlyLineSent s s := by simp [OnlyLineSent]

theorem OnlyLineSent.trans {s t u : State} (h : OnlyLineSent s t) (k : OnlyLineSent t u) : OnlyLineSent s u := by simp_all [OnlyLineSent]

theorem OnlyLineSent.fold {α : Type} {f : State → α → State} (h : ∀ s a, OnlyLineSent s (f s a)) (l : List α) (s : State) :
    OnlyLineSent s (l.foldl f s) := foldl_rel OnlyLineSent.refl (fun _ _ _ => OnlyLineSent.trans) h l s

/-- At most the lift unit and the event unit may differ. -/
abbrev OnlyLift (s t : State) : Prop :=
  t.line = s.line ∧ t.control = s.control ∧ t.regime = s.regime ∧ t.sense = s.sense ∧ t.fire = s.fire ∧
  t.door = s.door ∧ t.ann = s.ann ∧ t.live = s.live ∧ t.store = s.store ∧ t.pending = s.pending ∧
  t.freeCount = s.freeCount

theorem OnlyLift.refl (s : State) : OnlyLift s s := by simp [OnlyLift]

theorem OnlyLift.trans {s t u : State} (h : OnlyLift s t) (k : OnlyLift t u) : OnlyLift s u := by simp_all [OnlyLift]

theorem OnlyLift.fold {α : Type} {f : State → α → State} (h : ∀ s a, OnlyLift s (f s a)) (l : List α) (s : State) :
    OnlyLift s (l.foldl f s) := foldl_rel OnlyLift.refl (fun _ _ _ => OnlyLift.trans) h l s

/-- At most the lift unit, the event unit and the free values used may differ. -/
abbrev OnlyLiftFree (s t : State) : Prop :=
  t.line = s.line ∧ t.control = s.control ∧ t.regime = s.regime ∧ t.sense = s.sense ∧ t.fire = s.fire ∧
  t.door = s.door ∧ t.ann = s.ann ∧ t.live = s.live ∧ t.store = s.store ∧ t.pending = s.pending

theorem OnlyLiftFree.refl (s : State) : OnlyLiftFree s s := by simp [OnlyLiftFree]

theorem OnlyLiftFree.trans {s t u : State} (h : OnlyLiftFree s t) (k : OnlyLiftFree t u) : OnlyLiftFree s u := by simp_all [OnlyLiftFree]

theorem OnlyLiftFree.fold {α : Type} {f : State → α → State} (h : ∀ s a, OnlyLiftFree s (f s a)) (l : List α) (s : State) :
    OnlyLiftFree s (l.foldl f s) := foldl_rel OnlyLiftFree.refl (fun _ _ _ => OnlyLiftFree.trans) h l s

/-- At most the door unit and the event unit may differ. -/
abbrev OnlyDoor (s t : State) : Prop :=
  t.line = s.line ∧ t.control = s.control ∧ t.regime = s.regime ∧ t.sense = s.sense ∧ t.fire = s.fire ∧
  t.lift = s.lift ∧ t.ann = s.ann ∧ t.live = s.live ∧ t.store = s.store ∧ t.pending = s.pending ∧
  t.freeCount = s.freeCount

theorem OnlyDoor.refl (s : State) : OnlyDoor s s := by simp [OnlyDoor]

theorem OnlyDoor.trans {s t u : State} (h : OnlyDoor s t) (k : OnlyDoor t u) : OnlyDoor s u := by simp_all [OnlyDoor]

theorem OnlyDoor.fold {α : Type} {f : State → α → State} (h : ∀ s a, OnlyDoor s (f s a)) (l : List α) (s : State) :
    OnlyDoor s (l.foldl f s) := foldl_rel OnlyDoor.refl (fun _ _ _ => OnlyDoor.trans) h l s

/-- At most the clip store and the event unit may differ. -/
abbrev OnlyStore (s t : State) : Prop :=
  t.line = s.line ∧ t.control = s.control ∧ t.regime = s.regime ∧ t.sense = s.sense ∧ t.fire = s.fire ∧
  t.lift = s.lift ∧ t.door = s.door ∧ t.ann = s.ann ∧ t.live = s.live ∧ t.pending = s.pending ∧
  t.freeCount = s.freeCount

theorem OnlyStore.refl (s : State) : OnlyStore s s := by simp [OnlyStore]

theorem OnlyStore.trans {s t u : State} (h : OnlyStore s t) (k : OnlyStore t u) : OnlyStore s u := by simp_all [OnlyStore]

theorem OnlyStore.fold {α : Type} {f : State → α → State} (h : ∀ s a, OnlyStore s (f s a)) (l : List α) (s : State) :
    OnlyStore s (l.foldl f s) := foldl_rel OnlyStore.refl (fun _ _ _ => OnlyStore.trans) h l s

/-- At most the announcement unit, the clip store and the event unit may differ. -/
abbrev OnlyAnn (s t : State) : Prop :=
  t.line = s.line ∧ t.control = s.control ∧ t.regime = s.regime ∧ t.sense = s.sense ∧ t.fire = s.fire ∧
  t.lift = s.lift ∧ t.door = s.door ∧ t.live = s.live ∧ t.pending = s.pending ∧ t.freeCount = s.freeCount

theorem OnlyAnn.refl (s : State) : OnlyAnn s s := by simp [OnlyAnn]

theorem OnlyAnn.trans {s t u : State} (h : OnlyAnn s t) (k : OnlyAnn t u) : OnlyAnn s u := by simp_all [OnlyAnn]

theorem OnlyAnn.fold {α : Type} {f : State → α → State} (h : ∀ s a, OnlyAnn s (f s a)) (l : List α) (s : State) :
    OnlyAnn s (l.foldl f s) := foldl_rel OnlyAnn.refl (fun _ _ _ => OnlyAnn.trans) h l s

/-- At most the live page input, the announcement unit, the clip store and the event unit may differ. -/
abbrev OnlyLive (s t : State) : Prop :=
  t.line = s.line ∧ t.control = s.control ∧ t.regime = s.regime ∧ t.sense = s.sense ∧ t.fire = s.fire ∧
  t.lift = s.lift ∧ t.door = s.door ∧ t.pending = s.pending ∧ t.freeCount = s.freeCount

theorem OnlyLive.refl (s : State) : OnlyLive s s := by simp [OnlyLive]

theorem OnlyLive.trans {s t u : State} (h : OnlyLive s t) (k : OnlyLive t u) : OnlyLive s u := by simp_all [OnlyLive]

theorem OnlyLive.fold {α : Type} {f : State → α → State} (h : ∀ s a, OnlyLive s (f s a)) (l : List α) (s : State) :
    OnlyLive s (l.foldl f s) := foldl_rel OnlyLive.refl (fun _ _ _ => OnlyLive.trans) h l s

/-- At most the incident engine and the event unit may differ. -/
abbrev OnlyFire (s t : State) : Prop :=
  t.line = s.line ∧ t.control = s.control ∧ t.regime = s.regime ∧ t.sense = s.sense ∧ t.lift = s.lift ∧
  t.door = s.door ∧ t.ann = s.ann ∧ t.live = s.live ∧ t.store = s.store ∧ t.pending = s.pending ∧
  t.freeCount = s.freeCount

theorem OnlyFire.refl (s : State) : OnlyFire s s := by simp [OnlyFire]

theorem OnlyFire.trans {s t u : State} (h : OnlyFire s t) (k : OnlyFire t u) : OnlyFire s u := by simp_all [OnlyFire]

theorem OnlyFire.fold {α : Type} {f : State → α → State} (h : ∀ s a, OnlyFire s (f s a)) (l : List α) (s : State) :
    OnlyFire s (l.foldl f s) := foldl_rel OnlyFire.refl (fun _ _ _ => OnlyFire.trans) h l s

/-- At most the sense unit, the event unit and the free values used may differ. -/
abbrev OnlyChan (s t : State) : Prop :=
  t.line = s.line ∧ t.control = s.control ∧ t.regime = s.regime ∧ t.fire = s.fire ∧ t.lift = s.lift ∧
  t.door = s.door ∧ t.ann = s.ann ∧ t.live = s.live ∧ t.store = s.store ∧ t.pending = s.pending

theorem OnlyChan.refl (s : State) : OnlyChan s s := by simp [OnlyChan]

theorem OnlyChan.trans {s t u : State} (h : OnlyChan s t) (k : OnlyChan t u) : OnlyChan s u := by simp_all [OnlyChan]

theorem OnlyChan.fold {α : Type} {f : State → α → State} (h : ∀ s a, OnlyChan s (f s a)) (l : List α) (s : State) :
    OnlyChan s (l.foldl f s) := foldl_rel OnlyChan.refl (fun _ _ _ => OnlyChan.trans) h l s

/-- At most the units the building demand reaches may differ. -/
abbrev OnlyDemand (s t : State) : Prop :=
  t.line = s.line ∧ t.control = s.control ∧ t.regime = s.regime ∧ t.sense = s.sense ∧ t.live = s.live ∧
  t.pending = s.pending ∧ t.freeCount = s.freeCount

theorem OnlyDemand.refl (s : State) : OnlyDemand s s := by simp [OnlyDemand]

theorem OnlyDemand.trans {s t u : State} (h : OnlyDemand s t) (k : OnlyDemand t u) : OnlyDemand s u := by simp_all [OnlyDemand]

theorem OnlyDemand.fold {α : Type} {f : State → α → State} (h : ∀ s a, OnlyDemand s (f s a)) (l : List α) (s : State) :
    OnlyDemand s (l.foldl f s) := foldl_rel OnlyDemand.refl (fun _ _ _ => OnlyDemand.trans) h l s

/-- At most the mode, the load and the units the building demand reaches may differ. -/
abbrev OnlyIncident (s t : State) : Prop :=
  t.line = s.line ∧ t.sense = s.sense ∧ t.live = s.live ∧ t.pending = s.pending ∧ t.freeCount = s.freeCount ∧
  t.regime.active = s.regime.active ∧ t.regime.area = s.regime.area ∧ t.control.uptime = s.control.uptime ∧
  t.control.fallback = s.control.fallback ∧ t.control.settle = s.control.settle

theorem OnlyIncident.refl (s : State) : OnlyIncident s s := by simp [OnlyIncident]

theorem OnlyIncident.trans {s t u : State} (h : OnlyIncident s t) (k : OnlyIncident t u) : OnlyIncident s u := by simp_all [OnlyIncident]

theorem OnlyIncident.fold {α : Type} {f : State → α → State} (h : ∀ s a, OnlyIncident s (f s a)) (l : List α) (s : State) :
    OnlyIncident s (l.foldl f s) := foldl_rel OnlyIncident.refl (fun _ _ _ => OnlyIncident.trans) h l s

/-- At most every unit but the line interface and the live page input may differ. -/
abbrev OnlySense (s t : State) : Prop :=
  t.line = s.line ∧ t.live = s.live ∧ t.pending = s.pending ∧
  t.regime.active = s.regime.active ∧ t.regime.area = s.regime.area ∧ t.control.uptime = s.control.uptime ∧
  t.control.fallback = s.control.fallback ∧ t.control.settle = s.control.settle

theorem OnlySense.refl (s : State) : OnlySense s s := by simp [OnlySense]

theorem OnlySense.trans {s t u : State} (h : OnlySense s t) (k : OnlySense t u) : OnlySense s u := by simp_all [OnlySense]

theorem OnlySense.fold {α : Type} {f : State → α → State} (h : ∀ s a, OnlySense s (f s a)) (l : List α) (s : State) :
    OnlySense s (l.foldl f s) := foldl_rel OnlySense.refl (fun _ _ _ => OnlySense.trans) h l s

end Sys2Proof.Machine
end

