-- ==== Sys2Proof/Laws/SharedFrames.lean ====
section
/-! SUPPORT. The units each shared operation may touch. -/

namespace Sys2Proof.Machine

@[simp] theorem beginArrival_frame (s : State) : OnlyLineSent s s.beginArrival := by
  simp [State.beginArrival, OnlyLineSent]

@[simp] theorem raiseAs_frame (s : State) (c k src fs) : OnlyEvent s (s.raiseAs c k src fs) := by
  simp [State.raiseAs, OnlyEvent]

@[simp] theorem raise_frame (s : State) (k src fs) : OnlyEvent s (s.raise k src fs) := by
  simp [State.raise, OnlyEvent]

@[simp] theorem enterTrouble_frame (s : State) (src k d) : OnlyEvent s (s.enterTrouble src k d) := by
  unfold State.enterTrouble OnlyEvent
  (repeat' split) <;> simp

@[simp] theorem resolveTrouble_frame (s : State) (src k) : OnlyEvent s (s.resolveTrouble src k) := by
  unfold State.resolveTrouble OnlyEvent
  dsimp only
  (repeat' split) <;> simp

@[simp] theorem reply_frame (s : State) (evs h fs) : OnlyLine s (s.reply evs h fs) := by
  simp [State.reply, OnlyLine]

@[simp] theorem ok_frame (s : State) (kw fs) : OnlyLine s (s.ok kw fs) := by
  simp [State.ok, OnlyLine]

@[simp] theorem no_frame (s : State) (kw r d) : OnlyLine s (s.no kw r d) := by
  simp [State.no, OnlyLine]

@[simp] theorem noField_frame (s : State) (kw n) : OnlyLine s (s.noField kw n) := by
  simp [State.noField, OnlyLine]

@[simp] theorem openRequest_frame (s : State) (kw fs) : OnlyLineSent s (s.openRequest kw fs) := by
  unfold State.openRequest OnlyLineSent
  dsimp only
  (repeat' split) <;> simp

end Sys2Proof.Machine
end

