-- ==== Sys2Proof/Laws/AnnFrames.lean ====
section
/-! SUPPORT. The units each operation of the announcement unit, the live page input and the clip store may touch. -/

namespace Sys2Proof.Machine

@[simp] theorem clearPermit_frame (s : State) : OnlyStore s s.clearPermit := by
  simp [State.clearPermit, OnlyStore]

@[simp] theorem setEngine_frame (s : State) (e) : OnlyStore s (s.setEngine e) := by
  simp [State.setEngine, OnlyStore]

@[simp] theorem suspendErase_frame (s : State) (j c t) : OnlyStore s (s.suspendErase j c t) := by
  simp [State.suspendErase, OnlyStore]

@[simp] theorem resumeTest_frame (s : State) (b) : OnlyStore s (s.resumeTest b) := by
  unfold State.resumeTest OnlyStore
  (repeat' split) <;> simp

@[simp] theorem storeTakesFreeze_frame (s : State) (old new) : OnlyStore s (s.storeTakesFreeze old new) := by
  unfold State.storeTakesFreeze OnlyStore
  (repeat' split) <;> simp

@[simp] theorem judgeRead_frame (s : State) (r) : OnlyStore s (s.judgeRead r).1 := by
  unfold State.judgeRead OnlyStore
  dsimp only
  (repeat' split) <;> simp

@[simp] theorem beginRead_frame (s : State) (p c b) : OnlyStore s (s.beginRead p c b).1 := by
  simp [State.beginRead, OnlyStore]

@[simp] theorem endRead_frame (s : State) (p) : OnlyStore s (s.endRead p) := by
  unfold State.endRead OnlyStore
  (repeat' split) <;> simp

@[simp] theorem setProg_frame (s : State) (p r) : OnlyAnn s (s.setProg p r) := by
  unfold State.setProg OnlyAnn
  (repeat' split) <;> simp

@[simp] theorem raiseProgState_frame (s : State) (p) : OnlyAnn s (s.raiseProgState p) := by
  unfold State.raiseProgState OnlyAnn
  (repeat' split) <;> simp

@[simp] theorem substitute_frame (s : State) (p c b m) : OnlyAnn s (s.substitute p c b m) := by
  unfold State.substitute OnlyAnn
  dsimp only
  (repeat' split) <;> simp

@[simp] theorem failRead_frame (s : State) (r) : OnlyAnn s (s.failRead r) := by
  simp [State.failRead, OnlyAnn]

@[simp] theorem startStream_frame (s : State) (p) : OnlyAnn s (s.startStream p) := by
  unfold State.startStream OnlyAnn
  dsimp only
  (repeat' split) <;> simp

@[simp] theorem handBack_frame (s : State) (p) : OnlyAnn s (s.handBack p) := by
  unfold State.handBack OnlyAnn
  (repeat' split) <;> simp

@[simp] theorem startClip_frame (s : State) (p c) : OnlyAnn s (s.startClip p c) := by
  unfold State.startClip OnlyAnn
  dsimp only
  (repeat' split) <;> simp

@[simp] theorem startStep_frame (s : State) (p n st) : OnlyAnn s (s.startStep p n st) := by
  unfold State.startStep OnlyAnn
  (repeat' split) <;> simp

@[simp] theorem endStep_frame (s : State) (p) : OnlyAnn s (s.endStep p).1 := by
  unfold State.endStep OnlyAnn
  dsimp only
  (repeat' split) <;> simp

@[simp] theorem playAnnouncement_frame (s : State) (a) : OnlyAnn s (s.playAnnouncement a).1 := by
  unfold State.playAnnouncement OnlyAnn
  dsimp only
  (repeat' split) <;> simp

@[simp] theorem takeHead_frame (s : State) : OnlyAnn s s.takeHead.1 := by
  unfold State.takeHead OnlyAnn
  (repeat' split) <;> simp

@[simp] theorem runOne_frame (s : State) (p a) : OnlyAnn s (s.runOne p a).1 := by
  unfold State.runOne OnlyAnn
  (repeat' split) <;> simp

@[simp] theorem runActs_frame (k : Nat) (s : State) (p : Prog) (a : RunAct) : OnlyAnn s (State.runActs k s p a) := by
  induction k generalizing s a with
  | zero => exact OnlyAnn.refl s
  | succ k ih =>
    have h := runOne_frame s p a
    unfold State.runActs
    split
    · rename_i s' e; rw [e] at h; exact h
    · rename_i s' a' e; rw [e] at h; exact OnlyAnn.trans h (ih s' a')

@[simp] theorem finishStep_frame (s : State) (p) : OnlyAnn s (s.finishStep p) := by
  simp [State.finishStep, OnlyAnn]

@[simp] theorem beginRun_frame (s : State) (p c) : OnlyAnn s (s.beginRun p c) := by
  simp [State.beginRun, OnlyAnn]

@[simp] theorem stopProg_frame (s : State) (p) : OnlyAnn s (s.stopProg p) := by
  simp [State.stopProg, OnlyAnn]

@[simp] theorem setClaims_frame (s : State) (p c) : OnlyAnn s (s.setClaims p c) := by
  unfold State.setClaims OnlyAnn
  dsimp only
  (repeat' split) <;> simp

@[simp] theorem abandonTenant_frame (s : State) : OnlyAnn s s.abandonTenant := by
  simp [State.abandonTenant, OnlyAnn]

@[simp] theorem tenantDone_frame (s : State) (t o) : OnlyAnn s (s.tenantDone t o) := by
  simp [State.tenantDone, OnlyAnn]

@[simp] theorem endPlaying_frame (s : State) (o) : OnlyAnn s (s.endPlaying o) := by
  unfold State.endPlaying OnlyAnn
  (repeat' split) <;> simp

@[simp] theorem endAllTenants_frame (s : State) (o) : OnlyAnn s (s.endAllTenants o) := by
  unfold State.endAllTenants
  exact OnlyAnn.trans (by simp [OnlyAnn]) (OnlyAnn.fold (fun s a => tenantDone_frame s _ _) _ _)

@[simp] theorem startNext_frame (s : State) : OnlyAnn s s.startNext := by
  simp [State.startNext, OnlyAnn]

@[simp] theorem settleHolders_frame (s : State) : OnlyAnn s s.settleHolders := by
  simp [State.settleHolders, OnlyAnn]

@[simp] theorem announceTakes_frame (s : State) (old new) : OnlyAnn s (s.announceTakes old new) := by
  unfold State.announceTakes OnlyAnn
  (repeat' split) <;> simp

@[simp] theorem raiseLiveState_frame (s : State) : OnlyEvent s s.raiseLiveState := by
  simp [State.raiseLiveState, OnlyEvent]

@[simp] theorem handLive_frame (s : State) : OnlyLive s s.handLive := by
  simp [State.handLive, OnlyLive]

@[simp] theorem resync_frame (s : State) : OnlyLive s s.resync := by
  unfold State.resync OnlyLive
  dsimp only
  (repeat' split) <;> simp

@[simp] theorem prefillTest_frame (s : State) : OnlyLive s s.prefillTest := by
  unfold State.prefillTest OnlyLive
  dsimp only
  (repeat' split) <;> simp

@[simp] theorem blockArrives_frame (s : State) (b) : OnlyLive s (s.blockArrives b) := by
  unfold State.blockArrives OnlyLive
  (repeat' split) <;> simp

@[simp] theorem gather_frame (s : State) (x) : OnlyLive s (s.gather x) := by
  unfold State.gather OnlyLive
  dsimp only
  (repeat' split) <;> simp

@[simp] theorem liveOff_frame (s : State) : OnlyLive s s.liveOff := by
  unfold State.liveOff OnlyLive
  (repeat' split) <;> simp

@[simp] theorem rebindTenant_frame (s : State) : OnlyAnn s s.rebindTenant := by
  unfold State.rebindTenant OnlyAnn
  dsimp only
  (repeat' split) <;> simp

@[simp] theorem rebindAnnouncements_frame (s : State) : OnlyLive s s.rebindAnnouncements := by
  simp [State.rebindAnnouncements, OnlyLive]

@[simp] theorem dropClips_frame (s : State) (b k) : OnlyAnn s (s.dropClips b k) := by
  unfold State.dropClips
  exact OnlyAnn.trans (by simp [OnlyAnn]) (OnlyAnn.fold failRead_frame _ _)

@[simp] theorem storeTaken_frame (s : State) : OnlyStore s s.storeTaken := by
  simp [State.storeTaken, OnlyStore]

@[simp] theorem deliverSettled_frame (s : State) (b) : OnlyAnn s (s.deliverSettled b) := by
  exact OnlyAnn.fold (fun s r => by simp [OnlyAnn]) _ _

@[simp] theorem rejudgeReads_frame (s : State) : OnlyAnn s s.rejudgeReads := by
  exact OnlyAnn.fold (fun s r => by
    dsimp only
    split <;> simp [OnlyAnn]) _ _

@[simp] theorem writeFails_frame (s : State) (b k pl) : OnlyAnn s (s.writeFails b k pl) := by
  simp [State.writeFails, OnlyAnn]

@[simp] theorem commitDone_frame (s : State) (e) : OnlyStore s (s.commitDone e) := by
  simp [State.commitDone, OnlyStore]

end Sys2Proof.Machine
end

