-- ==== Sys2Proof/Laws/Memory.lean ====
section
/-! SUPPORT. The byte stores: every operation keeps the canonical form, and what each address reads as afterwards. -/

namespace Sys2Proof.Machine

variable {blank : Byte}

theorem wfFrom_mono {lo lo' : Nat} (h : lo' ≤ lo) : ∀ {m : Mem}, Mem.wfFrom blank lo m = true → Mem.wfFrom blank lo' m = true
  | [], _ => rfl
  | (a, b) :: m, w => by
    simp only [Mem.wfFrom, Bool.and_eq_true, decide_eq_true_eq] at w ⊢
    exact ⟨⟨h.trans w.1.1, w.1.2⟩, w.2⟩

/-- Below its first address a store in canonical form reads blank. -/
theorem read_below {lo x : Nat} (h : x < lo) : ∀ {m : Mem}, Mem.wfFrom blank lo m = true → Mem.read blank m x = blank
  | [], _ => rfl
  | (a, b) :: m, w => by
    simp only [Mem.wfFrom, Bool.and_eq_true, decide_eq_true_eq] at w
    have : x ≠ a := by omega
    have : x < a := by omega
    simp [Mem.read, *]

/-- A written byte keeps the canonical form. -/
theorem write_wfFrom {lo x : Nat} {v : Byte} (h : lo ≤ x) :
    ∀ {m : Mem}, Mem.wfFrom blank lo m = true → Mem.wfFrom blank lo (Mem.write blank m x v) = true
  | [], _ => by
    unfold Mem.write
    split <;> simp_all [Mem.wfFrom]
  | (a, b) :: m, w => by
    simp only [Mem.wfFrom, Bool.and_eq_true, decide_eq_true_eq, bne_iff_ne] at w
    obtain ⟨⟨hla, hb⟩, hm⟩ := w
    unfold Mem.write
    split
    · subst_vars
      split
      · exact wfFrom_mono (by omega) hm
      · simp_all [Mem.wfFrom]
    · split
      · split
        · simp_all [Mem.wfFrom]
        · simp only [Mem.wfFrom, Bool.and_eq_true, decide_eq_true_eq, bne_iff_ne]
          exact ⟨⟨h, ‹_›⟩, ⟨by omega, hb⟩, hm⟩
      · simp only [Mem.wfFrom, Bool.and_eq_true, decide_eq_true_eq, bne_iff_ne]
        exact ⟨⟨hla, hb⟩, write_wfFrom (by omega) hm⟩

/-- What an address reads as after one byte is written. -/
theorem read_write {lo x : Nat} {v : Byte} (y : Nat) :
    ∀ {m : Mem}, Mem.wfFrom blank lo m = true →
      Mem.read blank (Mem.write blank m x v) y = if y = x then v else Mem.read blank m y
  | [], _ => by
    unfold Mem.write
    split <;> simp_all [Mem.read]
  | (a, b) :: m, w => by
    simp only [Mem.wfFrom, Bool.and_eq_true, decide_eq_true_eq, bne_iff_ne] at w
    obtain ⟨⟨hla, hb⟩, hm⟩ := w
    by_cases hxa : x = a
    · subst hxa
      have below : y < x + 1 → Mem.read blank m y = blank := fun h => read_below h hm
      by_cases hv : v = blank
      · simp only [Mem.write, if_pos hv, if_true, Mem.read]
        by_cases hy : y = x
        · rw [if_pos hy, below (by omega), hv]
        · rw [if_neg hy, if_neg hy]
          by_cases hl : y < x
          · rw [if_pos hl, below (by omega)]
          · rw [if_neg hl]
      · by_cases hy : y = x <;> simp [Mem.write, Mem.read, hv, hy]
    · by_cases hlt : x < a
      · by_cases hv : v = blank
        · by_cases hy : y = x
          · subst hy; simp [Mem.write, Mem.read, hxa, hlt, hv]
          · simp [Mem.write, hxa, hlt, hv, hy]
        · by_cases hy : y = x
          · simp [Mem.write, Mem.read, hxa, hlt, hv, hy]
          · by_cases hl : y < x
            · have h1 : y ≠ a := by omega
              have h2 : y < a := by omega
              simp [Mem.write, Mem.read, hxa, hlt, hv, hy, hl, h1, h2]
            · simp [Mem.write, Mem.read, hxa, hlt, hv, hy, hl]
      · have ih := read_write (x := x) (v := v) y hm
        simp only [Mem.write, if_neg hxa, if_neg hlt, Mem.read]
        by_cases hy : y = a
        · have h1 : y ≠ x := by omega
          rw [if_pos hy, if_neg h1, if_pos hy]
        · by_cases hl : y < a
          · have h1 : y ≠ x := by omega
            rw [if_neg hy, if_pos hl, if_neg h1, if_neg hy, if_pos hl]
          · rw [if_neg hy, if_neg hl, ih, if_neg hy, if_neg hl]

/-- Bytes written one after another keep the canonical form. -/
theorem writeAll_wf : ∀ {vs : List Byte} {m : Mem} {x : Nat}, m.wf blank = true → (Mem.writeAll blank m x vs).wf blank = true
  | [], _, _, w => w
  | v :: vs, m, x, w => writeAll_wf (vs := vs) (m := Mem.write blank m x v) (x := x + 1) (write_wfFrom (Nat.zero_le _) w)

/-- What an address reads as after bytes are written: the byte laid there, or what it read before. -/
theorem read_writeAll (y : Nat) : ∀ {vs : List Byte} {m : Mem} {x : Nat}, m.wf blank = true →
    Mem.read blank (Mem.writeAll blank m x vs) y =
      if x ≤ y ∧ y < x + vs.length then vs.getD (y - x) 0 else Mem.read blank m y
  | [], m, x, w => by
    have : ¬(x ≤ y ∧ y < x + ([] : List Byte).length) := by simp
    rw [if_neg this]; rfl
  | v :: vs, m, x, w => by
    have ih := read_writeAll y (vs := vs) (x := x + 1) (write_wfFrom (v := v) (Nat.zero_le x) w)
    rw [Mem.writeAll, ih, read_write (lo := 0) y w]
    by_cases h1 : y = x
    · subst h1; simp
    · by_cases h2 : x + 1 ≤ y ∧ y < x + 1 + vs.length
      · have h3 : x ≤ y ∧ y < x + (v :: vs).length := by simp; omega
        rw [if_pos h2, if_pos h3, show y - x = (y - (x + 1)) + 1 by omega]
        rfl
      · have h3 : ¬(x ≤ y ∧ y < x + (v :: vs).length) := by simp; omega
        rw [if_neg h2, if_neg h3, if_neg h1]

/-- Dropping cells keeps the canonical form. -/
theorem filter_wfFrom (p : Nat × Byte → Bool) : ∀ {m : Mem} {lo : Nat}, Mem.wfFrom blank lo m = true →
    Mem.wfFrom blank lo (m.filter p) = true
  | [], _, _ => rfl
  | (a, b) :: m, lo, w => by
    simp only [Mem.wfFrom, Bool.and_eq_true, decide_eq_true_eq, bne_iff_ne] at w
    obtain ⟨⟨hla, hb⟩, hm⟩ := w
    have ih := filter_wfFrom p hm
    by_cases hp : p (a, b) = true
    · simp only [List.filter_cons_of_pos hp, Mem.wfFrom, Bool.and_eq_true, decide_eq_true_eq, bne_iff_ne]
      exact ⟨⟨hla, hb⟩, ih⟩
    · rw [List.filter_cons_of_neg hp]
      exact wfFrom_mono (by omega) ih

/-- An erase keeps the canonical form. -/
theorem erase_wf {m : Mem} {x len : Nat} (w : m.wf blank = true) : (m.erase x len).wf blank = true := filter_wfFrom _ w

/-- What an address reads as after an erase. -/
theorem read_erase {x len : Nat} (y : Nat) : ∀ {m : Mem} {lo : Nat}, Mem.wfFrom blank lo m = true →
    Mem.read blank (m.erase x len) y = if x ≤ y ∧ y < x + len then blank else Mem.read blank m y
  | [], _, _ => by simp [Mem.erase, Mem.read]
  | (a, b) :: m, lo, w => by
    simp only [Mem.wfFrom, Bool.and_eq_true, decide_eq_true_eq, bne_iff_ne] at w
    obtain ⟨⟨hla, hb⟩, hm⟩ := w
    have ih := read_erase (x := x) (len := len) y hm
    unfold Mem.erase at ih ⊢
    by_cases hp : (a < x || x + len ≤ a : Bool) = true
    · rw [List.filter_cons_of_pos (by exact hp)]
      simp only [Bool.or_eq_true, decide_eq_true_eq] at hp
      by_cases hy : y = a
      · subst hy
        have : ¬(x ≤ y ∧ y < x + len) := by omega
        rw [if_neg this]; simp [Mem.read]
      · by_cases hl : y < a
        · simp [Mem.read, hy, hl]
        · simp only [Mem.read, hy, hl, if_false]; exact ih
    · rw [List.filter_cons_of_neg (by exact hp), ih]
      simp only [Bool.or_eq_true, decide_eq_true_eq, not_or] at hp
      by_cases hin : x ≤ y ∧ y < x + len
      · simp [hin]
      · have hy : y ≠ a := by omega
        rw [if_neg hin, if_neg hin]
        by_cases hl : y < a
        · simp [Mem.read, hy, hl, read_below (by omega : y < a + 1) hm]
        · simp [Mem.read, hy, hl]

/-- Bytes laid out from an address are in canonical form. -/
theorem ofBytes_wfFrom : ∀ {vs : List Byte} {x : Nat}, Mem.wfFrom blank x (Mem.ofBytes blank x vs) = true
  | [], _ => rfl
  | v :: vs, x => by
    have ih := ofBytes_wfFrom (vs := vs) (x := x + 1)
    unfold Mem.ofBytes
    split
    · exact wfFrom_mono (by omega) ih
    · simp_all [Mem.wfFrom]

/-- What an address reads as in a store laid out from `x`. -/
theorem read_ofBytes (y : Nat) : ∀ {vs : List Byte} {x : Nat},
    Mem.read blank (Mem.ofBytes blank x vs) y = if x ≤ y ∧ y < x + vs.length then vs.getD (y - x) 0 else blank
  | [], x => by
    have : ¬(x ≤ y ∧ y < x + ([] : List Byte).length) := by simp
    rw [if_neg this]; rfl
  | v :: vs, x => by
    have ih := read_ofBytes y (vs := vs) (x := x + 1)
    have w := ofBytes_wfFrom (blank := blank) (vs := vs) (x := x + 1)
    have below : y < x + 1 → Mem.read blank (Mem.ofBytes blank (x + 1) vs) y = blank := fun h => read_below h w
    by_cases h1 : y = x
    · subst h1
      simp only [Mem.ofBytes]
      split
      · rw [below (by omega)]; simp_all
      · simp [Mem.read]
    · have step : (if x ≤ y ∧ y < x + (v :: vs).length then (v :: vs).getD (y - x) 0 else blank) =
          if x + 1 ≤ y ∧ y < x + 1 + vs.length then vs.getD (y - (x + 1)) 0 else blank := by
        by_cases h2 : x + 1 ≤ y ∧ y < x + 1 + vs.length
        · have h3 : x ≤ y ∧ y < x + (v :: vs).length := by simp; omega
          rw [if_pos h2, if_pos h3, show y - x = (y - (x + 1)) + 1 by omega]
          rfl
        · have h3 : ¬(x ≤ y ∧ y < x + (v :: vs).length) := by simp; omega
          rw [if_neg h2, if_neg h3]
      rw [step]
      simp only [Mem.ofBytes]
      split
      · exact ih
      · by_cases hl : y < x
        · have : ¬(x + 1 ≤ y ∧ y < x + 1 + vs.length) := by omega
          rw [if_neg this]
          simp [Mem.read, h1, hl]
        · simp only [Mem.read, h1, hl, if_false]; exact ih

/-- A walk over a store in canonical form is what its addresses read as. -/
theorem walk_eq_reads : ∀ {len x : Nat} {m : Mem}, Mem.wfFrom blank x m = true →
    Mem.walk blank len x m = (List.range len).map fun i => Mem.read blank m (x + i)
  | 0, _, _, _ => rfl
  | len + 1, x, [], _ => by
    rw [Mem.walk, walk_eq_reads (m := []) rfl, List.range_succ_eq_map, List.map_cons, List.map_map]
    rfl
  | len + 1, x, (a, b) :: m, w => by
    have w' := w
    simp only [Mem.wfFrom, Bool.and_eq_true, decide_eq_true_eq] at w'
    rw [Mem.walk, List.range_succ_eq_map, List.map_cons, List.map_map]
    split
    · rename_i e
      subst e
      rw [walk_eq_reads w'.2]
      simp only [Mem.read, Nat.add_zero, if_true, List.cons.injEq, true_and]
      refine List.map_congr_left fun i _ => ?_
      have : ¬(a + (i + 1) = a) := by omega
      have : ¬(a + (i + 1) < a) := by omega
      simp [*, Nat.add_comm 1 i, Nat.add_assoc]
    · have lt : x < a := by omega
      rw [walk_eq_reads (m := (a, b) :: m)]
      · simp only [Mem.read, Nat.add_zero, if_neg (show ¬x = a by omega), if_pos lt, List.cons.injEq, true_and]
        refine List.map_congr_left fun i _ => ?_
        simp only [Function.comp, Nat.succ_eq_add_one, show x + 1 + i = x + (i + 1) by omega]
      · simp only [Mem.wfFrom, Bool.and_eq_true, decide_eq_true_eq]
        exact ⟨⟨lt, w'.1.2⟩, w'.2⟩

/-- The cells from an address on are in canonical form from it. -/
theorem dropWhile_wfFrom {x : Nat} : ∀ {m : Mem} {lo : Nat}, Mem.wfFrom blank lo m = true →
    Mem.wfFrom blank x (m.dropWhile fun c => c.1 < x) = true
  | [], _, _ => rfl
  | (a, b) :: m, lo, w => by
    simp only [Mem.wfFrom, Bool.and_eq_true, decide_eq_true_eq] at w
    rw [List.dropWhile_cons]
    split
    · exact dropWhile_wfFrom w.2
    · rename_i h
      simp only [decide_eq_true_eq, not_lt] at h
      simp only [Mem.wfFrom, Bool.and_eq_true, decide_eq_true_eq]
      exact ⟨⟨h, w.1.2⟩, w.2⟩

/-- An address at or above the dropped cells reads as before. -/
theorem read_dropWhile {x y : Nat} (h : x ≤ y) : ∀ {m : Mem}, Mem.read blank (m.dropWhile fun c => c.1 < x) y = Mem.read blank m y
  | [] => rfl
  | (a, b) :: m => by
    rw [List.dropWhile_cons]
    split
    · rename_i k
      simp only [decide_eq_true_eq] at k
      rw [read_dropWhile h, Mem.read, if_neg (by omega), if_neg (by omega)]
    · rfl

/-- A slice of a store in canonical form is what its addresses read as. -/
theorem slice_eq_reads {m : Mem} {x len : Nat} (w : m.wf blank = true) :
    m.slice blank x len = (List.range len).map fun i => Mem.read blank m (x + i) := by
  rw [Mem.slice, walk_eq_reads (dropWhile_wfFrom w)]
  exact List.map_congr_left fun i _ => read_dropWhile (by omega)

end Sys2Proof.Machine
end

