-- ==== Sys2Proof/Laws/Clips.lean ====
section
/-! SUPPORT. The clip directory: what the scan of a cold start makes of the headers it finds (R160), and what a data write does to them (R165). -/

namespace Sys2Proof.Machine

theorem mem_putDirEntry {e x : DirEntry} : ∀ {l : List DirEntry}, x ∈ putDirEntry e l ↔ x = e ∨ x ∈ l
  | [] => by simp [putDirEntry]
  | y :: ys => by
    unfold putDirEntry
    split
    · simp only [List.mem_cons, mem_putDirEntry (l := ys)]
      tauto
    · simp

/-- An entry whose id is new joins a directory in id order. -/
theorem putDirEntry_order {e : DirEntry} :
    ∀ {l : List DirEntry}, (∀ x ∈ l, x.id ≠ e.id) → l.Pairwise (fun x y => x.id < y.id) →
      (putDirEntry e l).Pairwise fun x y => x.id < y.id
  | [], _, _ => by simp [putDirEntry]
  | y :: ys, h, p => by
    rw [List.pairwise_cons] at p
    have hy := h y (by simp)
    unfold putDirEntry
    split
    · rw [List.pairwise_cons]
      refine ⟨fun x hx => ?_, putDirEntry_order (fun x hx => h x (by simp [hx])) p.2⟩
      rcases mem_putDirEntry.mp hx with rfl | hx
      · assumption
      · exact p.1 x hx
    · rw [List.pairwise_cons, List.pairwise_cons]
      refine ⟨fun x hx => ?_, p⟩
      rcases List.mem_cons.mp hx with rfl | hx
      · omega
      · have := p.1 x hx
        omega

/-- What one header test says: the entry is valid and its id is new. -/
theorem scanBlock_eq_some {c : ClipStore} {bank block : Nat} {e : DirEntry} (m : (bank, block) ∈ allBlocks) :
    c.scanBlock bank block = some e ↔ (e.bank = bank ∧ e.first = block) ∧ c.validHeader e ∧ ∀ x ∈ c.directory, x.id ≠ e.id := by
  unfold ClipStore.scanBlock ClipStore.validHeader ClipStore.find
  split
  · rename_i h
    constructor
    · intro k; cases k
    · rintro ⟨⟨rfl, rfl⟩, v, _⟩
      rw [h] at v
      simp at v
  · rename_i id length crc h
    simp only [inRange, clipFits, Bool.and_eq_true, decide_eq_true_eq, Option.isNone_iff_eq_none, List.find?_eq_none, List.all_eq_true,
      beq_iff_eq, Option.ite_none_right_eq_some, Option.some.injEq]
    constructor
    · rintro ⟨⟨⟨⟨⟨⟨a, b⟩, d⟩, f⟩, g⟩, k⟩, rfl⟩
      exact ⟨⟨rfl, rfl⟩, ⟨m, h, a, d, f, g, k⟩, b⟩
    · rintro ⟨⟨rfl, rfl⟩, ⟨_, v, a, d, f, g, k⟩, b⟩
      rw [h] at v
      simp only [Option.some.injEq, Prod.mk.injEq] at v
      obtain ⟨rfl, rfl, rfl⟩ := v
      exact ⟨⟨⟨⟨⟨⟨a, b⟩, d⟩, f⟩, g⟩, k⟩, rfl⟩

/-- The blocks are scanned in the order of the scan. -/
theorem allBlocks_order : allBlocks.Pairwise scansBefore := by
  unfold scansBefore
  decide +kernel

/-- The directory once the blocks of `done` have been scanned. -/
structure ScanLaw (c : ClipStore) (done : List (Nat × Nat)) : Prop where
  valid : ∀ e ∈ c.directory, c.validHeader e
  place : ∀ e ∈ c.directory, (e.bank, e.first) ∈ done
  order : c.directory.Pairwise fun e f => e.id < f.id
  apart : ∀ e ∈ c.directory, ∀ f ∈ c.directory, e ≠ f → f.touches e.bank e.first = false
  whole : ∀ e, (e.bank, e.first) ∈ done → c.validHeader e → e ∉ c.directory →
    ∃ f ∈ c.directory, scansBefore (f.bank, f.first) (e.bank, e.first) ∧ (f.touches e.bank e.first = true ∨ f.id = e.id)

/-- One block of the scan. -/
theorem scanAt_law {c : ClipStore} {done : List (Nat × Nat)} {bb : Nat × Nat} (before : ∀ x ∈ done, scansBefore x bb) (m : bb ∈ allBlocks)
    (h : ScanLaw c done) : ScanLaw (c.scanAt bb) (done ++ [bb]) := by
  have mem : ∀ {e : DirEntry}, (e.bank, e.first) ∈ done ++ [bb] ↔ (e.bank, e.first) ∈ done ∨ (e.bank, e.first) = bb := by simp
  unfold ClipStore.scanAt
  split
  · rename_i clash
    rw [List.any_eq_true] at clash
    obtain ⟨f, hf, t⟩ := clash
    refine ⟨h.valid, fun e he => mem.mpr (.inl (h.place e he)), h.order, h.apart, fun e he v n => ?_⟩
    rcases mem.mp he with he | rfl
    · exact h.whole e he v n
    · exact ⟨f, hf, before _ (h.place f hf), .inl t⟩
  · rename_i clash
    rw [List.any_eq_true, not_exists] at clash
    split
    · rename_i nothing
      refine ⟨h.valid, fun e he => mem.mpr (.inl (h.place e he)), h.order, h.apart, fun e he v n => ?_⟩
      rcases mem.mp he with he | rfl
      · exact h.whole e he v n
      · by_contra k
        have id : ∀ x ∈ c.directory, x.id ≠ e.id := fun x hx i => k ⟨x, hx, before _ (h.place x hx), .inr i⟩
        rw [(scanBlock_eq_some m).mpr ⟨⟨rfl, rfl⟩, v, id⟩] at nothing
        cases nothing
    · rename_i x found
      obtain ⟨⟨bank, first⟩, v, id⟩ := (scanBlock_eq_some m).mp found
      obtain rfl : bb = (x.bank, x.first) := by rw [bank, first]
      refine ⟨fun e he => ?_, fun e he => ?_, putDirEntry_order id h.order, fun e he f hf ne => ?_, fun e he w n => ?_⟩
      · rcases mem_putDirEntry.mp he with rfl | he
        · exact v
        · exact h.valid e he
      · rcases mem_putDirEntry.mp he with rfl | he
        · exact mem.mpr (.inr rfl)
        · exact mem.mpr (.inl (h.place e he))
      · rcases mem_putDirEntry.mp he with rfl | old
        · rcases mem_putDirEntry.mp hf with rfl | hf
          · exact absurd rfl ne
          · exact Bool.eq_false_iff.mpr fun t => clash f ⟨hf, t⟩
        · rcases mem_putDirEntry.mp hf with rfl | hf
          · have b := before _ (h.place e old)
            unfold scansBefore at b
            simp only [DirEntry.touches, Bool.and_eq_false_iff, beq_eq_false_iff_ne, decide_eq_false_iff_not]
            simp only at b
            omega
          · exact h.apart e old f hf ne
      · have n' : e ≠ x ∧ e ∉ c.directory := by
          constructor
          · rintro rfl; exact n (mem_putDirEntry.mpr (.inl rfl))
          · intro k; exact n (mem_putDirEntry.mpr (.inr k))
        rcases mem.mp he with he | he
        · obtain ⟨f, hf, r⟩ := h.whole e he w n'.2
          exact ⟨f, mem_putDirEntry.mpr (.inr hf), r⟩
        · exfalso
          simp only [Prod.mk.injEq] at he
          have a := w.2.1
          have b := v.2.1
          change c.headerOf _ _ = _ at a
          rw [he.1, he.2, b] at a
          simp only [Option.some.injEq, Prod.mk.injEq] at a
          apply n'.1
          cases e; cases x
          simp_all

theorem scan_law {l : List (Nat × Nat)} : ∀ {c : ClipStore} {done : List (Nat × Nat)}, (∀ x ∈ l, x ∈ allBlocks) →
    (done ++ l).Pairwise scansBefore → ScanLaw c done → ScanLaw (l.foldl ClipStore.scanAt c) (done ++ l) := by
  induction l with
  | nil => intro c done _ _ h; simpa using h
  | cons b l ih =>
    intro c done m p h
    have q : ∀ x ∈ done, scansBefore x b := fun x hx => (List.pairwise_append.mp p).2.2 x hx b (by simp)
    have k := ih (c := c.scanAt b) (done := done ++ [b]) (fun x hx => m x (by simp [hx])) (by simpa using p) (scanAt_law q (m b (by simp)) h)
    simpa using k

/-- What the cold-start scan makes of the directory, whatever it was. -/
theorem rebuild_scanned (c : ClipStore) : c.rebuild.scanned := by
  have h : ScanLaw { c with directory := [] } [] := ⟨by simp, by simp, by simp, by simp, by simp⟩
  have k := scan_law (l := allBlocks) (fun _ h => h) (by simpa using allBlocks_order) h
  exact ⟨k.valid, k.order, k.apart, fun e v n => k.whole e (by simpa using v.1) v n⟩

/-- A cold start leaves the directory as its scan makes it. -/
theorem cold_scanned (c : ClipStore) : c.cold.scanned := rebuild_scanned _

/-- A data write that lands changes no header but one whose first sixteen bytes it changes. -/
theorem land_headerOf {c : ClipStore} {bank block offset : Nat} {bytes : List Byte} (w : c.bytes.wf erasedByte = true)
    (h : ∀ i, i < bytes.length → offset + i < 16 →
      c.bytes.read erasedByte (blockBase bank block + offset + i) = bytes.getD i 0) :
    (c.land bank block offset bytes).headerOf bank block = c.headerOf bank block := by
  have s : (c.land bank block offset bytes).bytes.slice erasedByte (blockBase bank block) 16 =
      c.bytes.slice erasedByte (blockBase bank block) 16 := by
    rw [ClipStore.land, slice_eq_reads (writeAll_wf w), slice_eq_reads w]
    refine List.map_congr_left fun k hk => ?_
    have hk := List.mem_range.mp hk
    rw [read_writeAll _ w]
    split
    · rename_i b
      rw [← h (blockBase bank block + k - (blockBase bank block + offset)) (by omega) (by omega),
        Nat.add_sub_cancel' b.1]
    · rfl
  have a : ∀ x, (c.land bank block offset bytes).headerAt x = c.headerAt x := fun _ => rfl
  have o : ∀ x, (c.land bank block offset bytes).overlay x = c.overlay x := fun _ => rfl
  simp only [ClipStore.headerOf, ClipStore.headUnwritten, ClipStore.readBytes, s, a, o]
  rfl
end Sys2Proof.Machine
end

