-- ==== Sys2Proof/Laws/DoorFrames.lean ====
section
/-! SUPPORT. The units each operation of the door unit may touch. -/

namespace Sys2Proof.Machine

@[simp] theorem setPoint_frame (s : State) (d p) : OnlyDoor s (s.setPoint d p) := by
  simp [State.setPoint, OnlyDoor]

@[simp] theorem joinRelock_frame (s : State) (d p) : OnlyDoor s (s.joinRelock d p) := by
  simp [State.joinRelock, OnlyDoor]

@[simp] theorem leaveRelock_frame (s : State) (d) : OnlyDoor s (s.leaveRelock d) := by
  simp [State.leaveRelock, OnlyDoor]

@[simp] theorem demandBegins_frame (s : State) (d) : OnlyDoor s (s.demandBegins d) := by
  unfold State.demandBegins OnlyDoor
  (repeat' split) <;> simp

@[simp] theorem toRelock_frame (s : State) (d p) : OnlyDoor s (s.toRelock d p) := by
  unfold State.toRelock OnlyDoor
  (repeat' split) <;> simp

@[simp] theorem demandEnds_frame (s : State) (d) : OnlyDoor s (s.demandEnds d) := by
  unfold State.demandEnds OnlyDoor
  (repeat' split) <;> simp

@[simp] theorem takeDemand_frame (s : State) (d b) : OnlyDoor s (s.takeDemand d b) := by
  unfold State.takeDemand OnlyDoor
  dsimp only
  (repeat' split) <;> simp

@[simp] theorem reevaluate_frame (s : State) (b) : OnlyDoor s (s.reevaluate b) := by
  exact OnlyDoor.fold (fun s d => takeDemand_frame s d _) _ _

@[simp] theorem flagHeldOpen_frame (s : State) (d p t) : OnlyDoor s (s.flagHeldOpen d p t) := by
  simp [State.flagHeldOpen, OnlyDoor]

@[simp] theorem freezeEndsAt_frame (s : State) (d) : OnlyDoor s (s.freezeEndsAt d) := by
  unfold State.freezeEndsAt OnlyDoor
  (repeat' split) <;> simp

@[simp] theorem timeOpen_frame (s : State) (d) : OnlyDoor s (s.timeOpen d) := by
  unfold State.timeOpen OnlyDoor
  (repeat' split) <;> simp

@[simp] theorem doorTakes_frame (s : State) (b old new) : OnlyDoor s (s.doorTakes b old new) := by
  unfold State.doorTakes
  dsimp only
  split
  · exact OnlyDoor.trans (reevaluate_frame _ _) (OnlyDoor.fold freezeEndsAt_frame _ _)
  · exact reevaluate_frame _ _

@[simp] theorem faultLock_frame (s : State) (d p) : OnlyDoor s (s.faultLock d p) := by
  simp [State.faultLock, OnlyDoor]

@[simp] theorem judgePoint_frame (s : State) (d p b c) : OnlyDoor s (s.judgePoint d p b c) := by
  unfold State.judgePoint OnlyDoor
  (repeat' split) <;> simp

@[simp] theorem scanPoint_frame (s : State) (d r) : OnlyDoor s (s.scanPoint d r) := by
  unfold State.scanPoint OnlyDoor
  dsimp only
  (repeat' split) <;> simp

@[simp] theorem recoverPoint_frame (s : State) (d r) : OnlyDoor s (s.recoverPoint d r) := by
  unfold State.recoverPoint OnlyDoor
  dsimp only
  (repeat' split) <;> simp

@[simp] theorem setExpander_frame (s : State) (e x) : OnlyDoor s (s.setExpander e x) := by
  simp [State.setExpander, OnlyDoor]

@[simp] theorem losePoint_frame (s : State) (d) : OnlyDoor s (s.losePoint d) := by
  unfold State.losePoint OnlyDoor
  (repeat' split) <;> simp

@[simp] theorem pacePoint_frame (s : State) (d) : OnlyDoor s (s.pacePoint d) := by
  unfold State.pacePoint OnlyDoor
  (repeat' split) <;> simp

@[simp] theorem putHost_frame (s : State) (d v) : OnlyDoor s (s.putHost d v) := by
  unfold State.putHost OnlyDoor
  (repeat' split) <;> simp

@[simp] theorem rebindExpander_frame (old) (s : State) (e) : OnlyDoor s (State.rebindExpander old s e) := by
  unfold State.rebindExpander OnlyDoor
  (repeat' split) <;> simp

@[simp] theorem retime_frame (s : State) (d p) : OnlyDoor s (s.retime d p) := by
  unfold State.retime OnlyDoor
  (repeat' split) <;> simp

@[simp] theorem rebindPoint_frame (s : State) (d) : OnlyDoor s (s.rebindPoint d) := by
  unfold State.rebindPoint OnlyDoor
  (repeat' split) <;> simp

@[simp] theorem settleNewPoint_frame (old) (s : State) (d) : OnlyDoor s (State.settleNewPoint old s d) := by
  unfold State.settleNewPoint OnlyDoor
  (repeat' split) <;> simp

@[simp] theorem rebindDoors_frame (s : State) (old) : OnlyDoor s (s.rebindDoors old) := by
  unfold State.rebindDoors
  exact OnlyDoor.trans (OnlyDoor.fold (rebindExpander_frame _) _ _)
    (OnlyDoor.trans (OnlyDoor.fold rebindPoint_frame _ _) (OnlyDoor.fold (settleNewPoint_frame _) _ _))

end Sys2Proof.Machine
end

