-- ==== Sys2Proof/Laws/Events.lean ====
section
/-! SUPPORT. The event queue and the trouble list: where a record goes, and that each operation keeps their laws. -/

namespace Sys2Proof.Machine

/-! ### The event queue -/

theorem mem_insertEvent {e x : Event} : ∀ {q : List Event}, x ∈ insertEvent e q ↔ x = e ∨ x ∈ q
  | [] => by simp [insertEvent]
  | y :: q => by
    unfold insertEvent
    split
    · simp [mem_insertEvent (q := q)]; tauto
    · simp

@[simp] theorem insertEvent_length (e : Event) : ∀ q : List Event, (insertEvent e q).length = q.length + 1
  | [] => rfl
  | x :: q => by
    unfold insertEvent
    split <;> simp [insertEvent_length e q]

/-- A record joins after every record of its own or a lower class number, before the others. -/
theorem insertEvent_place (e : Event) : ∀ q : List Event, classSorted q = true →
    insertEvent e q = q.filter (fun x => decide (x.cls.num ≤ e.cls.num)) ++ e ::
      q.filter (fun x => !decide (x.cls.num ≤ e.cls.num))
  | [], _ => rfl
  | x :: q, w => by
    simp only [classSorted, Bool.and_eq_true, List.all_eq_true, decide_eq_true_eq] at w
    unfold insertEvent
    split
    · rename_i h
      rw [insertEvent_place e q w.2]
      simp [h]
    · rename_i h
      have none_lower : ∀ y ∈ q, ¬y.cls.num ≤ e.cls.num := fun y hy hc => h ((w.1 y hy).trans hc)
      have f1 : q.filter (fun x => decide (x.cls.num ≤ e.cls.num)) = [] := by
        rw [List.filter_eq_nil_iff]; intro y hy; simpa using none_lower y hy
      have f2 : q.filter (fun x => !decide (x.cls.num ≤ e.cls.num)) = q := by
        rw [List.filter_eq_self]; intro y hy; simpa using none_lower y hy
      simp [h, f1, f2]

theorem insertEvent_sorted (e : Event) : ∀ q : List Event, classSorted q = true → classSorted (insertEvent e q) = true
  | [], _ => rfl
  | x :: q, w => by
    simp only [classSorted, Bool.and_eq_true, List.all_eq_true, decide_eq_true_eq] at w
    unfold insertEvent
    split
    · rename_i h
      simp only [classSorted, Bool.and_eq_true, List.all_eq_true, decide_eq_true_eq]
      refine ⟨fun y hy => ?_, insertEvent_sorted e q w.2⟩
      rcases mem_insertEvent.mp hy with rfl | hy
      · exact h
      · exact w.1 y hy
    · rename_i h
      simp only [classSorted, Bool.and_eq_true, List.all_eq_true, decide_eq_true_eq, List.mem_cons]
      refine ⟨?_, w.1, w.2⟩
      rintro y (rfl | hy)
      · omega
      · have := w.1 y hy; omega

theorem classSorted_sublist : ∀ {p q : List Event}, p.Sublist q → classSorted q = true → classSorted p = true
  | _, _, .slnil, _ => rfl
  | _, _, .cons _ h, w => by
    simp only [classSorted, Bool.and_eq_true] at w
    exact classSorted_sublist h w.2
  | _, _, .cons_cons _ h, w => by
    simp only [classSorted, Bool.and_eq_true, List.all_eq_true] at w ⊢
    exact ⟨fun y hy => w.1 y (h.subset hy), classSorted_sublist h w.2⟩

/-- Taking a record keeps at most 64 records, in class order. -/
theorem take_law {u : EventUnit} {e : Event} (w : u.queue.length ≤ 64 ∧ classSorted u.queue = true) :
    (u.take e).queue.length ≤ 64 ∧ classSorted (u.take e).queue = true := by
  unfold EventUnit.take
  split
  · rename_i h
    simp only [insertEvent_length]
    exact ⟨by omega, insertEvent_sorted e _ w.2⟩
  · split
    · exact w
    · rename_i c hc
      have hex : ∃ x ∈ u.queue, (x.cls == c) = true := by
        unfold displaceable at hc
        have := List.find?_some hc
        simp only [Bool.and_eq_true, List.any_eq_true] at this
        exact this.2
      simp only [insertEvent_length]
      constructor
      · obtain ⟨x, hx, hxc⟩ := hex
        have := List.length_eraseP_of_mem (p := fun x : Event => x.cls == c) hx hxc
        omega
      · exact insertEvent_sorted e _ (classSorted_sublist (List.eraseP_sublist) w.2)

/-- Taking a record changes neither the trouble list nor clears the gap flag. -/
theorem take_rest {u : EventUnit} {e : Event} : (u.take e).troubles = u.troubles ∧ (u.gap = true → (u.take e).gap = true) := by
  unfold EventUnit.take
  split
  · exact ⟨rfl, id⟩
  · split <;> exact ⟨rfl, fun _ => rfl⟩

/-! ### The trouble list -/

theorem mem_putEntry {e x : TroubleEntry} : ∀ {ts : List TroubleEntry}, x ∈ putEntry e ts → x = e ∨ x ∈ ts
  | [], h => by simp [putEntry] at h; exact Or.inl h
  | y :: ts, h => by
    unfold putEntry at h
    split at h
    · rcases List.mem_cons.mp h with rfl | h
      · simp
      · rcases mem_putEntry h with h | h
        · exact Or.inl h
        · simp [h]
    · split at h
      · rcases List.mem_cons.mp h with h | h
        · exact Or.inl h
        · simp [h]
      · rcases List.mem_cons.mp h with h | h
        · exact Or.inl h
        · exact Or.inr h

theorem putEntry_sorted (e : TroubleEntry) : ∀ ts : List TroubleEntry, sourceSorted ts = true → sourceSorted (putEntry e ts) = true
  | [], _ => rfl
  | x :: ts, w => by
    simp only [sourceSorted, Bool.and_eq_true, List.all_eq_true, decide_eq_true_eq] at w
    unfold putEntry
    split
    · rename_i h
      simp only [sourceSorted, Bool.and_eq_true, List.all_eq_true, decide_eq_true_eq]
      refine ⟨fun y hy => ?_, putEntry_sorted e ts w.2⟩
      rcases mem_putEntry hy with rfl | hy
      · exact h
      · exact w.1 y hy
    · split
      · rename_i h h2
        simp only [sourceSorted, Bool.and_eq_true, List.all_eq_true, decide_eq_true_eq]
        exact ⟨fun y hy => h2 ▸ w.1 y hy, w.2⟩
      · rename_i h h2
        simp only [sourceSorted, Bool.and_eq_true, List.all_eq_true, decide_eq_true_eq, List.mem_cons]
        refine ⟨?_, w.1, w.2⟩
        rintro y (rfl | hy)
        · omega
        · have := w.1 y hy; omega

theorem sourceSorted_sublist : ∀ {p q : List TroubleEntry}, p.Sublist q → sourceSorted q = true → sourceSorted p = true
  | _, _, .slnil, _ => rfl
  | _, _, .cons _ h, w => by
    simp only [sourceSorted, Bool.and_eq_true] at w
    exact sourceSorted_sublist h w.2
  | _, _, .cons_cons _ h, w => by
    simp only [sourceSorted, Bool.and_eq_true, List.all_eq_true] at w ⊢
    exact ⟨fun y hy => w.1 y (h.subset hy), sourceSorted_sublist h w.2⟩

/-- Replacing a source's standing kinds keeps the trouble list's law. -/
theorem putStanding_law {src : Source} {ks : List Standing} {ts : List TroubleEntry}
    (w : sourceSorted ts = true ∧ ∀ t ∈ ts, t.kinds ≠ []) :
    sourceSorted (putStanding src ks ts) = true ∧ ∀ t ∈ putStanding src ks ts, t.kinds ≠ [] := by
  cases ks with
  | nil => exact ⟨sourceSorted_sublist List.filter_sublist w.1, fun t ht => w.2 t (List.mem_of_mem_filter ht)⟩
  | cons k ks =>
    refine ⟨putEntry_sorted _ _ w.1, fun t ht => ?_⟩
    rcases mem_putEntry ht with rfl | ht
    · simp
    · exact w.2 t ht

end Sys2Proof.Machine
end

