-- ==== Sys2Proof/Laws/LiftFrames.lean ====
section
/-! SUPPORT. The units each operation of the lift unit may touch. -/

namespace Sys2Proof.Machine

@[simp] theorem setCar_frame (s : State) (n c) : OnlyLift s (s.setCar n c) := by
  simp [State.setCar, OnlyLift]

@[simp] theorem sendFrame_frame (s : State) (n fr) : OnlyLift s (s.sendFrame n fr) := by
  simp [State.sendFrame, OnlyLift]

@[simp] theorem setRx_frame (s : State) (n rx) : OnlyLift s (s.setRx n rx) := by
  simp [State.setRx, OnlyLift]

@[simp] theorem violate_frame (s : State) (n l k) : OnlyLift s (s.violate n l k) := by
  unfold State.violate OnlyLift
  (repeat' split) <;> simp

@[simp] theorem raiseCarService_frame (s : State) (n c) : OnlyLift s (s.raiseCarService n c) := by
  simp [State.raiseCarService, OnlyLift]

@[simp] theorem abortCar_frame (s : State) (n c code r) : OnlyLift s (s.abortCar n c code r) := by
  unfold State.abortCar OnlyLift
  (repeat' split) <;> simp

@[simp] theorem sendToRecall_frame (s : State) (n c) : OnlyLift s (s.sendToRecall n c) := by
  unfold State.sendToRecall OnlyLift
  (repeat' split) <;> simp

@[simp] theorem applyRecall_frame (s : State) (n c) : OnlyLift s (s.applyRecall n c) := by
  unfold State.applyRecall OnlyLift
  (repeat' split) <;> simp

@[simp] theorem applyLeft_frame (s : State) (n c) : OnlyLift s (s.applyLeft n c) := by
  unfold State.applyLeft OnlyLift
  (repeat' split) <;> simp

@[simp] theorem leaveOut_frame (s : State) (n c) : OnlyLift s (s.leaveOut n c) := by
  unfold State.leaveOut OnlyLift
  dsimp only
  (repeat' split) <;> simp

@[simp] theorem retarget_frame (s : State) (n c old) : OnlyLift s (s.retarget n c old) := by
  unfold State.retarget OnlyLift
  (repeat' split) <;> simp

@[simp] theorem cancelBarred_frame (s : State) (n c) : OnlyLift s (s.cancelBarred n c) := by
  unfold State.cancelBarred
  exact OnlyLift.trans (by simp [OnlyLift]) (OnlyLift.fold (fun s l => by simp [OnlyLift]) _ _)

@[simp] theorem carTakesGuards_frame (s : State) (n) : OnlyLift s (s.carTakesGuards n) := by
  unfold State.carTakesGuards OnlyLift
  dsimp only
  (repeat' split) <;> simp

@[simp] theorem guardChange_frame (s : State) : OnlyLift s s.guardChange := by
  exact OnlyLift.fold carTakesGuards_frame _ _

@[simp] theorem setGuards_frame (s : State) (gs) : OnlyLift s (s.setGuards gs) := by
  unfold State.setGuards OnlyLift
  dsimp only
  (repeat' split) <;> simp

@[simp] theorem carTakesRecall_frame (old) (s : State) (n) : OnlyLift s (State.carTakesRecall old s n) := by
  unfold State.carTakesRecall OnlyLift
  dsimp only
  (repeat' split) <;> simp

@[simp] theorem liftTakes_frame (s : State) (old new) : OnlyLift s (s.liftTakes old new) := by
  unfold State.liftTakes
  dsimp only
  split
  · simp [OnlyLift]
  · exact OnlyLift.trans (setGuards_frame _ _) (OnlyLift.fold (carTakesRecall_frame _) _ _)

@[simp] theorem becomeHomed_frame (s : State) (n c) : OnlyLift s (s.becomeHomed n c) := by
  simp [State.becomeHomed, OnlyLift]

@[simp] theorem enterArrived_frame (s : State) (n c r) : OnlyLift s (s.enterArrived n c r) := by
  unfold State.enterArrived OnlyLift
  (repeat' split) <;> simp

@[simp] theorem startLandingOf_frame (s : State) (c) : OnlyLiftFree s (s.startLandingOf c).1 := by
  unfold State.startLandingOf OnlyLiftFree
  (repeat' split) <;> simp

@[simp] theorem lookTaken_frame (s : State) (n c t r) : OnlyLiftFree s (s.lookTaken n c t r) := by
  unfold State.lookTaken OnlyLiftFree
  (repeat' split) <;> simp

@[simp] theorem lookTravelling_frame (s : State) (n c t r o) : OnlyLift s (s.lookTravelling n c t r o) := by
  unfold State.lookTravelling OnlyLift
  (repeat' split) <;> simp

@[simp] theorem lookSent_frame (s : State) (n c r o) : OnlyLift s (s.lookSent n c r o) := by
  unfold State.lookSent OnlyLift
  (repeat' split) <;> simp

@[simp] theorem lookArrived_frame (s : State) (n c t r) : OnlyLift s (s.lookArrived n c t r) := by
  unfold State.lookArrived OnlyLift
  (repeat' split) <;> simp

@[simp] theorem recallingTakes_frame (s : State) (n c r o) : OnlyLiftFree s (s.recallingTakes n c r o) := by
  unfold State.recallingTakes OnlyLiftFree
  (repeat' split) <;> simp

@[simp] theorem homedTakes_frame (s : State) (n c r) : OnlyLift s (s.homedTakes n c r) := by
  unfold State.homedTakes OnlyLift
  (repeat' split) <;> simp

@[simp] theorem crewTakes_frame (s : State) (n c r o) : OnlyLift s (s.crewTakes n c r o) := by
  unfold State.crewTakes OnlyLift
  (repeat' split) <;> simp

@[simp] theorem serviceTakes_frame (s : State) (n c b r o) : OnlyLiftFree s (s.serviceTakes n c b r o) := by
  unfold State.serviceTakes OnlyLiftFree
  dsimp only
  (repeat' split) <;> simp

@[simp] theorem leaveCrew_frame (s : State) (n c) : OnlyLift s (s.leaveCrew n c) := by
  unfold State.leaveCrew OnlyLift
  dsimp only
  (repeat' split) <;> simp

@[simp] theorem keyTakes_frame (s : State) (n c b k) : OnlyLift s (s.keyTakes n c b k) := by
  unfold State.keyTakes OnlyLift
  dsimp only
  (repeat' split) <;> simp

@[simp] theorem newReport_frame (s : State) (n c b r) : OnlyLiftFree s (s.newReport n c b r) := by
  unfold State.newReport OnlyLiftFree
  dsimp only
  (repeat' split) <;> simp

@[simp] theorem takeReport_frame (s : State) (n c r) : OnlyLiftFree s (s.takeReport n c r) := by
  unfold State.takeReport OnlyLiftFree
  dsimp only
  (repeat' split) <;> simp

@[simp] theorem judgeCall_frame (s : State) (n l c) : OnlyLift s (s.judgeCall n l c) := by
  unfold State.judgeCall OnlyLift
  dsimp only
  (repeat' split) <;> simp

@[simp] theorem takeTaken_frame (s : State) (n c l) : OnlyLiftFree s (s.takeTaken n c l) := by
  unfold State.takeTaken OnlyLiftFree
  dsimp only
  (repeat' split) <;> simp

@[simp] theorem takeRefused_frame (s : State) (n c l r) : OnlyLift s (s.takeRefused n c l r) := by
  unfold State.takeRefused OnlyLift
  (repeat' split) <;> simp

@[simp] theorem takeAsk_frame (s : State) (n c l) : OnlyLift s (s.takeAsk n c l) := by
  unfold State.takeAsk OnlyLift
  (repeat' split) <;> simp

@[simp] theorem judgeFrame_frame (s : State) (n f) : OnlyLiftFree s (s.judgeFrame n f) := by
  unfold State.judgeFrame OnlyLiftFree
  (repeat' split) <;> simp

@[simp] theorem receiveOn_frame (n) (s : State) (b) : OnlyLiftFree s (State.receiveOn n s b) := by
  unfold State.receiveOn OnlyLiftFree
  dsimp only
  (repeat' split) <;> simp

@[simp] theorem regroup_frame (s : State) (n c) : OnlyLift s (s.regroup n c) := by
  unfold State.regroup OnlyLift
  (repeat' split) <;> simp

@[simp] theorem dropCar_frame (s : State) (n c) : OnlyLift s (s.dropCar n c) := by
  unfold State.dropCar OnlyLift
  (repeat' split) <;> simp

@[simp] theorem rebindCar_frame (old) (s : State) (n) : OnlyLift s (State.rebindCar old s n) := by
  unfold State.rebindCar OnlyLift
  (repeat' split) <;> simp

@[simp] theorem rebindLift_frame (s : State) (old) : OnlyLift s (s.rebindLift old) := by
  have h := OnlyLift.fold (rebindCar_frame old) (span 1 6) s
  exact OnlyLift.trans h (OnlyLift.trans (by simp [OnlyLift]) (guardChange_frame _))

end Sys2Proof.Machine
end

