-- ==== Sys2Proof/Laws/FireFrames.lean ====
section
/-! SUPPORT. The units each operation of the incident engine may touch. -/

namespace Sys2Proof.Machine

@[simp] theorem leaveMaintenance_frame (s : State) : OnlyIncident s s.leaveMaintenance := by
  unfold State.leaveMaintenance RegimeUnit.abandon OnlyIncident
  (repeat' split) <;> simp

@[simp] theorem setZone_frame (s : State) (z r) : OnlyFire s (s.setZone z r) := by
  simp [State.setZone, OnlyFire]

@[simp] theorem setIncident_frame (s : State) (i) : OnlyFire s (s.setIncident i) := by
  simp [State.setIncident, OnlyFire]

@[simp] theorem recomputeDemand_frame (s : State) : OnlyDemand s s.recomputeDemand := by
  unfold State.recomputeDemand OnlyDemand
  dsimp only
  (repeat' split) <;> simp

@[simp] theorem incidentOpened_frame (s : State) (w) : OnlyIncident s (s.incidentOpened w) := by
  unfold State.incidentOpened OnlyIncident
  (repeat' split) <;> simp

@[simp] theorem openIncident_frame (s : State) (o st sev ms a e) : OnlyFire s (s.openIncident o st sev ms a e).1 := by
  simp [State.openIncident, OnlyFire]

@[simp] theorem resound_frame (s : State) (i c) : OnlyFire s (s.resound i c) := by
  unfold State.resound OnlyFire
  (repeat' split) <;> simp

@[simp] theorem raiseSeverity_frame (s : State) (i z) : OnlyFire s (s.raiseSeverity i z) := by
  unfold State.raiseSeverity OnlyFire
  (repeat' split) <;> simp

@[simp] theorem joinIncident_frame (s : State) (i z r m) : OnlyDemand s (s.joinIncident i z r m) := by
  unfold State.joinIncident OnlyDemand
  dsimp only
  (repeat' split) <;> simp

@[simp] theorem openForZone_frame (s : State) (z r e) : OnlyIncident s (s.openForZone z r e) := by
  simp [State.openForZone, OnlyIncident]

@[simp] theorem placeZone_frame (s : State) (z) : OnlyIncident s (s.placeZone z) := by
  unfold State.placeZone OnlyIncident
  (repeat' split) <;> simp

@[simp] theorem latchZone_frame (s : State) (z r l) : OnlyFire s (s.latchZone z r l) := by
  simp [State.latchZone, OnlyFire]

@[simp] theorem startZone_frame (s : State) (z r l) : OnlyFire s (s.startZone z r l) := by
  unfold State.startZone OnlyFire
  dsimp only
  (repeat' split) <;> simp

@[simp] theorem placeIfAlarm_frame (s : State) (z) : OnlyIncident s (s.placeIfAlarm z) := by
  unfold State.placeIfAlarm OnlyIncident
  (repeat' split) <;> simp

@[simp] theorem memberRises_frame (s : State) (z r) : OnlyDemand s (s.memberRises z r) := by
  unfold State.memberRises OnlyDemand
  (repeat' split) <;> simp

@[simp] theorem zoneTakesSignal_frame (s : State) (z sig) : OnlyIncident s (s.zoneTakesSignal z sig) := by
  unfold State.zoneTakesSignal OnlyIncident
  dsimp only
  (repeat' split) <;> simp

@[simp] theorem zoneTakesFault_frame (s : State) (z b) : OnlyFire s (s.zoneTakesFault z b) := by
  unfold State.zoneTakesFault OnlyFire
  dsimp only
  (repeat' split) <;> simp

@[simp] theorem releaseMember_frame (s : State) (m) : OnlyFire s (s.releaseMember m) := by
  unfold State.releaseMember OnlyFire
  (repeat' split) <;> simp

end Sys2Proof.Machine
end

