-- ==== Sys2Proof/Laws/SenseFrames.lean ====
section
/-! SUPPORT. The units each operation of the sense unit may touch. -/

namespace Sys2Proof.Machine

@[simp] theorem setChan_frame (s : State) (n c) : OnlyChan s (s.setChan n c) := by
  simp [State.setChan, OnlyChan]

@[simp] theorem handSignal_frame (s : State) (n) : OnlySense s (s.handSignal n) := by
  unfold State.handSignal OnlySense
  (repeat' split) <;> simp

@[simp] theorem handFault_frame (s : State) (n) : OnlyFire s (s.handFault n) := by
  unfold State.handFault OnlyFire
  (repeat' split) <;> simp

@[simp] theorem unknownTrouble_frame (s : State) (n sig p) : OnlyChan s (s.unknownTrouble n sig p) := by
  unfold State.unknownTrouble OnlyChan
  (repeat' split) <;> simp

@[simp] theorem setSignal_frame (s : State) (n c sig p) : OnlySense s (s.setSignal n c sig p) := by
  simp [State.setSignal, OnlySense]

@[simp] theorem handOn_frame (s : State) (m) : OnlyChan s (s.handOn m) := by
  unfold State.handOn OnlyChan
  dsimp only
  (repeat' split) <;> simp

@[simp] theorem takeMeter_frame (s : State) (n c b) : OnlyChan s (s.takeMeter n c b) := by
  unfold State.takeMeter OnlyChan
  (repeat' split) <;> simp

@[simp] theorem releaseMeter_frame (s : State) (n c) : OnlyChan s (s.releaseMeter n c) := by
  unfold State.releaseMeter OnlyChan
  (repeat' split) <;> simp

@[simp] theorem recorded_frame (s : State) (ms) : OnlyChan s (s.recorded ms).1 := by
  unfold State.recorded OnlyChan
  (repeat' split) <;> simp

@[simp] theorem unlockedPeriod_frame (s : State) (n c p) : OnlySense s (s.unlockedPeriod n c p) := by
  unfold State.unlockedPeriod OnlySense
  dsimp only
  (repeat' split) <;> simp

@[simp] theorem lockedPeriod_frame (s : State) (n c l p) : OnlyChan s (s.lockedPeriod n c l p) := by
  unfold State.lockedPeriod OnlyChan
  dsimp only
  (repeat' split) <;> simp

@[simp] theorem meterRise_frame (s : State) (n c) : OnlySense s (s.meterRise n c) := by
  unfold State.meterRise OnlySense
  dsimp only
  (repeat' split) <;> simp

@[simp] theorem meterFall_frame (s : State) (n c) : OnlyChan s (s.meterFall n c) := by
  unfold State.meterFall OnlyChan
  dsimp only
  (repeat' split) <;> simp

@[simp] theorem lineTroubles_frame (s : State) (n cl) : OnlyChan s (s.lineTroubles n cl) := by
  unfold State.lineTroubles OnlyChan
  (repeat' split) <;> simp

@[simp] theorem startingTest_frame (s : State) : OnlySense s s.startingTest := by
  unfold State.startingTest OnlySense
  (repeat' split) <;> simp

@[simp] theorem spotMean_frame (s : State) (l) : OnlyChan s (s.spotMean l).1 := by
  unfold State.spotMean OnlyChan
  dsimp only
  (repeat' split) <;> simp

@[simp] theorem raiseSpotDone_frame (s : State) (n r) : OnlyChan s (s.raiseSpotDone n r) := by
  unfold State.raiseSpotDone OnlyChan
  (repeat' split) <;> simp

@[simp] theorem becomeDriven_frame (s : State) (n c) : OnlySense s (s.becomeDriven n c) := by
  unfold State.becomeDriven OnlySense
  dsimp only
  (repeat' split) <;> simp

@[simp] theorem becomeUndriven_frame (s : State) (n c) : OnlySense s (s.becomeUndriven n c) := by
  unfold State.becomeUndriven OnlySense
  dsimp only
  (repeat' split) <;> simp

@[simp] theorem rebuildZones_frame (s : State) : OnlyFire s s.rebuildZones := by
  simp [State.rebuildZones, OnlyFire]

@[simp] theorem channelUnused_frame (old) (s : State) (n) : OnlyChan s (State.channelUnused old s n) := by
  unfold State.channelUnused OnlyChan
  dsimp only
  (repeat' split) <;> simp

@[simp] theorem channelUsed_frame (old) (s : State) (n) : OnlyChan s (State.channelUsed old s n) := by
  unfold State.channelUsed OnlyChan
  (repeat' split) <;> simp

@[simp] theorem reclassify_frame (s : State) (n) : OnlyChan s (s.reclassify n) := by
  unfold State.reclassify OnlyChan
  (repeat' split) <;> simp

@[simp] theorem zoneTakesUp_frame (s : State) (z) : OnlyFire s (s.zoneTakesUp z) := by
  unfold State.zoneTakesUp OnlyFire
  dsimp only
  (repeat' split) <;> simp

@[simp] theorem rebindSense_frame (s : State) (old) : OnlySense s (s.rebindSense old) := by
  have a := OnlyFire.trans (rebuildZones_frame s) (OnlyFire.refl _)
  have b := OnlyChan.fold (channelUnused_frame old) (span 1 24) s.rebuildZones
  have c := OnlyChan.fold (channelUsed_frame old) (span 1 24) ((span 1 24).foldl (State.channelUnused old) s.rebuildZones)
  have d := OnlyChan.fold reclassify_frame (span 1 24)
    ((span 1 24).foldl (State.channelUsed old) ((span 1 24).foldl (State.channelUnused old) s.rebuildZones))
  have e := OnlyFire.fold zoneTakesUp_frame (span 1 64) ((span 1 24).foldl State.reclassify
    ((span 1 24).foldl (State.channelUsed old) ((span 1 24).foldl (State.channelUnused old) s.rebuildZones)))
  unfold OnlyFire at a e
  unfold OnlyChan at b c d
  unfold OnlySense State.rebindSense
  simp_all

end Sys2Proof.Machine
end

