-- ==== Sys2Proof/Laws/Reports.lean ====
section
/-! SUPPORT. What every operation does to the event unit: it takes events of the present uptime, and the trouble list keeps its law. -/

namespace Sys2Proof.Machine

set_option linter.unusedVariables false
set_option linter.unusedSimpArgs false

/-- From the event unit `a` to `b` some events of uptime `n` were taken, and the trouble list kept its law. -/
def Reported (n : Nat) (a b : EventUnit) : Prop :=
  (∃ l : List Event, (∀ x ∈ l, x.time = n) ∧ (l.foldl EventUnit.take a).queue = b.queue ∧ (l.foldl EventUnit.take a).gap = b.gap) ∧
  ((sourceSorted a.troubles = true ∧ ∀ t ∈ a.troubles, t.kinds ≠ []) →
    sourceSorted b.troubles = true ∧ ∀ t ∈ b.troubles, t.kinds ≠ [])

/-- What an event unit takes depends on its queue and its gap flag alone. -/
theorem take_queue_gap {u v : EventUnit} (e : Event) (q : u.queue = v.queue) (g : u.gap = v.gap) :
    (u.take e).queue = (v.take e).queue ∧ (u.take e).gap = (v.take e).gap := by
  unfold EventUnit.take
  rw [q]
  split
  · exact ⟨rfl, g⟩
  · split
    · exact ⟨q ▸ rfl, rfl⟩
    · exact ⟨rfl, rfl⟩

/-- An operation that leaves the event unit alone reports nothing. -/
theorem Reported.refl (n : Nat) (a : EventUnit) : Reported n a a := ⟨⟨[], by simp, rfl, rfl⟩, id⟩

/-- One more event of the present uptime. -/
theorem Reported.take {n : Nat} {a b : EventUnit} (h : Reported n a b) (e : Event) (t : e.time = n) : Reported n a (b.take e) := by
  obtain ⟨⟨l, lt, q, g⟩, tr⟩ := h
  refine ⟨⟨l ++ [e], ?_, ?_⟩, ?_⟩
  · intro x hx
    rcases List.mem_append.mp hx with hx | hx
    · exact lt x hx
    · rw [List.mem_singleton.mp hx]; exact t
  · rw [List.foldl_append]; exact take_queue_gap e q g
  · rw [take_rest.1]; exact tr

/-- A source's standing kinds written anew. -/
theorem Reported.standing {n : Nat} {a b : EventUnit} (h : Reported n a b) (src : Source) (ks : List Standing) :
    Reported n a { b with troubles := putStanding src ks b.troubles } :=
  ⟨h.1, fun w => putStanding_law (h.2 w)⟩

/-- A fold of operations that report. -/
theorem Reported.fold {n : Nat} {e : EventUnit} {α : Type} {f : State → α → State}
    (hf : ∀ s a, Reported n e s.event → s.control.uptime = n → Reported n e (f s a).event ∧ (f s a).control.uptime = n) :
    ∀ (l : List α) (s : State), Reported n e s.event → s.control.uptime = n →
      Reported n e (l.foldl f s).event ∧ (l.foldl f s).control.uptime = n
  | [], s, h, t => ⟨h, t⟩
  | a :: l, s, h, t => by
    have k := hf s a h t
    exact Reported.fold hf l (f s a) k.1 k.2

@[simp] theorem beginArrival_reported {n : Nat} {e : EventUnit} {s : State} (h : Reported n e s.event)
    (t : s.control.uptime = n) : Reported n e s.beginArrival.event := by
  simp (maxDischargeDepth := 30) [State.beginArrival, h, t]

@[simp] theorem raiseAs_reported {n : Nat} {e : EventUnit} {s : State} (c k src fs) (h : Reported n e s.event)
    (t : s.control.uptime = n) : Reported n e (s.raiseAs c k src fs).event := by
  exact h.take _ t

@[simp] theorem raise_reported {n : Nat} {e : EventUnit} {s : State} (k src fs) (h : Reported n e s.event)
    (t : s.control.uptime = n) : Reported n e (s.raise k src fs).event := by
  simp (maxDischargeDepth := 30) [State.raise, h, t]

@[simp] theorem enterTrouble_reported {n : Nat} {e : EventUnit} {s : State} (src k d) (h : Reported n e s.event)
    (t : s.control.uptime = n) : Reported n e (s.enterTrouble src k d).event := by
  unfold State.enterTrouble
  dsimp only
  split
  · exact h.standing _ _
  · exact raiseAs_reported _ _ _ _ (h.standing _ _) t

@[simp] theorem resolveTrouble_reported {n : Nat} {e : EventUnit} {s : State} (src k) (h : Reported n e s.event)
    (t : s.control.uptime = n) : Reported n e (s.resolveTrouble src k).event := by
  unfold State.resolveTrouble
  dsimp only
  split
  · exact h
  · exact raiseAs_reported _ _ _ _ (h.standing _ _) t

@[simp] theorem reply_reported {n : Nat} {e : EventUnit} {s : State} (evs h' fs) (h : Reported n e s.event)
    (t : s.control.uptime = n) : Reported n e (s.reply evs h' fs).event := by
  simp (maxDischargeDepth := 30) [State.reply, h, t]

@[simp] theorem ok_reported {n : Nat} {e : EventUnit} {s : State} (kw fs) (h : Reported n e s.event)
    (t : s.control.uptime = n) : Reported n e (s.ok kw fs).event := by
  simp (maxDischargeDepth := 30) [State.ok, h, t]

@[simp] theorem no_reported {n : Nat} {e : EventUnit} {s : State} (kw r d) (h : Reported n e s.event)
    (t : s.control.uptime = n) : Reported n e (s.no kw r d).event := by
  simp (maxDischargeDepth := 30) [State.no, h, t]

@[simp] theorem noField_reported {n : Nat} {e : EventUnit} {s : State} (kw n') (h : Reported n e s.event)
    (t : s.control.uptime = n) : Reported n e (s.noField kw n').event := by
  simp (maxDischargeDepth := 30) [State.noField, h, t]

@[simp] theorem openRequest_reported {n : Nat} {e : EventUnit} {s : State} (kw fs) (h : Reported n e s.event)
    (t : s.control.uptime = n) : Reported n e (s.openRequest kw fs).event := by
  unfold State.openRequest
  dsimp only
  (repeat' split) <;> simp (maxDischargeDepth := 30) [h, t]

@[simp] theorem setCar_reported {n : Nat} {e : EventUnit} {s : State} (n' c) (h : Reported n e s.event)
    (t : s.control.uptime = n) : Reported n e (s.setCar n' c).event := by
  simp (maxDischargeDepth := 30) [State.setCar, h, t]

@[simp] theorem sendFrame_reported {n : Nat} {e : EventUnit} {s : State} (n' fr) (h : Reported n e s.event)
    (t : s.control.uptime = n) : Reported n e (s.sendFrame n' fr).event := by
  simp (maxDischargeDepth := 30) [State.sendFrame, h, t]

@[simp] theorem setRx_reported {n : Nat} {e : EventUnit} {s : State} (n' rx) (h : Reported n e s.event)
    (t : s.control.uptime = n) : Reported n e (s.setRx n' rx).event := by
  simp (maxDischargeDepth := 30) [State.setRx, h, t]

@[simp] theorem violate_reported {n : Nat} {e : EventUnit} {s : State} (n' l k) (h : Reported n e s.event)
    (t : s.control.uptime = n) : Reported n e (s.violate n' l k).event := by
  unfold State.violate
  (repeat' split) <;> simp (maxDischargeDepth := 30) [h, t]

@[simp] theorem raiseCarService_reported {n : Nat} {e : EventUnit} {s : State} (n' c) (h : Reported n e s.event)
    (t : s.control.uptime = n) : Reported n e (s.raiseCarService n' c).event := by
  simp (maxDischargeDepth := 30) [State.raiseCarService, h, t]

@[simp] theorem abortCar_reported {n : Nat} {e : EventUnit} {s : State} (n' c code r) (h : Reported n e s.event)
    (t : s.control.uptime = n) : Reported n e (s.abortCar n' c code r).event := by
  unfold State.abortCar
  (repeat' split) <;> simp (maxDischargeDepth := 30) [h, t]

@[simp] theorem sendToRecall_reported {n : Nat} {e : EventUnit} {s : State} (n' c) (h : Reported n e s.event)
    (t : s.control.uptime = n) : Reported n e (s.sendToRecall n' c).event := by
  unfold State.sendToRecall
  (repeat' split) <;> simp (maxDischargeDepth := 30) [h, t]

@[simp] theorem applyRecall_reported {n : Nat} {e : EventUnit} {s : State} (n' c) (h : Reported n e s.event)
    (t : s.control.uptime = n) : Reported n e (s.applyRecall n' c).event := by
  unfold State.applyRecall
  (repeat' split) <;> simp (maxDischargeDepth := 30) [h, t]

@[simp] theorem applyLeft_reported {n : Nat} {e : EventUnit} {s : State} (n' c) (h : Reported n e s.event)
    (t : s.control.uptime = n) : Reported n e (s.applyLeft n' c).event := by
  unfold State.applyLeft
  (repeat' split) <;> simp (maxDischargeDepth := 30) [h, t]

@[simp] theorem leaveOut_reported {n : Nat} {e : EventUnit} {s : State} (n' c) (h : Reported n e s.event)
    (t : s.control.uptime = n) : Reported n e (s.leaveOut n' c).event := by
  unfold State.leaveOut
  dsimp only
  (repeat' split) <;> simp (maxDischargeDepth := 30) [h, t]

@[simp] theorem retarget_reported {n : Nat} {e : EventUnit} {s : State} (n' c old) (h : Reported n e s.event)
    (t : s.control.uptime = n) : Reported n e (s.retarget n' c old).event := by
  unfold State.retarget
  (repeat' split) <;> simp (maxDischargeDepth := 30) [h, t]

@[simp] theorem cancelBarred_reported {n : Nat} {e : EventUnit} {s : State} (n' c) (h : Reported n e s.event)
    (t : s.control.uptime = n) : Reported n e (s.cancelBarred n' c).event := by
  unfold State.cancelBarred
  exact (Reported.fold (fun s l h t => by constructor <;> simp (maxDischargeDepth := 30) [h, t]) _ _ (by simp (maxDischargeDepth := 30) [h, t]) (by simp [t])).1

@[simp] theorem carTakesGuards_reported {n : Nat} {e : EventUnit} {s : State} (n') (h : Reported n e s.event)
    (t : s.control.uptime = n) : Reported n e (s.carTakesGuards n').event := by
  unfold State.carTakesGuards
  dsimp only
  (repeat' split) <;> simp (maxDischargeDepth := 30) [h, t]

@[simp] theorem guardChange_reported {n : Nat} {e : EventUnit} {s : State} (h : Reported n e s.event)
    (t : s.control.uptime = n) : Reported n e s.guardChange.event := by
  exact (Reported.fold (fun s l h t => by constructor <;> simp (maxDischargeDepth := 30) [h, t]) _ _ h t).1

@[simp] theorem setGuards_reported {n : Nat} {e : EventUnit} {s : State} (gs) (h : Reported n e s.event)
    (t : s.control.uptime = n) : Reported n e (s.setGuards gs).event := by
  unfold State.setGuards
  dsimp only
  (repeat' split) <;> simp (maxDischargeDepth := 30) [h, t]

@[simp] theorem carTakesRecall_reported {n : Nat} {e : EventUnit} {s : State} (old) (n') (h : Reported n e s.event)
    (t : s.control.uptime = n) : Reported n e (State.carTakesRecall old s n').event := by
  unfold State.carTakesRecall
  dsimp only
  (repeat' split) <;> simp (maxDischargeDepth := 30) [h, t]

@[simp] theorem liftTakes_reported {n : Nat} {e : EventUnit} {s : State} (old new) (h : Reported n e s.event)
    (t : s.control.uptime = n) : Reported n e (s.liftTakes old new).event := by
  unfold State.liftTakes
  dsimp only
  split
  · simp (maxDischargeDepth := 30) [h, t]
  · exact (Reported.fold (fun s l h t => by constructor <;> simp (maxDischargeDepth := 30) [h, t]) _ _ (by simp (maxDischargeDepth := 30) [h, t]) (by simp [t])).1

@[simp] theorem becomeHomed_reported {n : Nat} {e : EventUnit} {s : State} (n' c) (h : Reported n e s.event)
    (t : s.control.uptime = n) : Reported n e (s.becomeHomed n' c).event := by
  simp (maxDischargeDepth := 30) [State.becomeHomed, h, t]

@[simp] theorem enterArrived_reported {n : Nat} {e : EventUnit} {s : State} (n' c r) (h : Reported n e s.event)
    (t : s.control.uptime = n) : Reported n e (s.enterArrived n' c r).event := by
  unfold State.enterArrived
  (repeat' split) <;> simp (maxDischargeDepth := 30) [h, t]

@[simp] theorem startLandingOf_reported {n : Nat} {e : EventUnit} {s : State} (c) (h : Reported n e s.event)
    (t : s.control.uptime = n) : Reported n e (s.startLandingOf c).1.event := by
  unfold State.startLandingOf
  (repeat' split) <;> simp (maxDischargeDepth := 30) [h, t]

@[simp] theorem lookTaken_reported {n : Nat} {e : EventUnit} {s : State} (n' c t' r) (h : Reported n e s.event)
    (t : s.control.uptime = n) : Reported n e (s.lookTaken n' c t' r).event := by
  unfold State.lookTaken
  (repeat' split) <;> simp (maxDischargeDepth := 30) [h, t]

@[simp] theorem lookTravelling_reported {n : Nat} {e : EventUnit} {s : State} (n' c t' r o) (h : Reported n e s.event)
    (t : s.control.uptime = n) : Reported n e (s.lookTravelling n' c t' r o).event := by
  unfold State.lookTravelling
  (repeat' split) <;> simp (maxDischargeDepth := 30) [h, t]

@[simp] theorem lookSent_reported {n : Nat} {e : EventUnit} {s : State} (n' c r o) (h : Reported n e s.event)
    (t : s.control.uptime = n) : Reported n e (s.lookSent n' c r o).event := by
  unfold State.lookSent
  (repeat' split) <;> simp (maxDischargeDepth := 30) [h, t]

@[simp] theorem lookArrived_reported {n : Nat} {e : EventUnit} {s : State} (n' c t' r) (h : Reported n e s.event)
    (t : s.control.uptime = n) : Reported n e (s.lookArrived n' c t' r).event := by
  unfold State.lookArrived
  (repeat' split) <;> simp (maxDischargeDepth := 30) [h, t]

@[simp] theorem recallingTakes_reported {n : Nat} {e : EventUnit} {s : State} (n' c r o) (h : Reported n e s.event)
    (t : s.control.uptime = n) : Reported n e (s.recallingTakes n' c r o).event := by
  unfold State.recallingTakes
  (repeat' split) <;> simp (maxDischargeDepth := 30) [h, t]

@[simp] theorem homedTakes_reported {n : Nat} {e : EventUnit} {s : State} (n' c r) (h : Reported n e s.event)
    (t : s.control.uptime = n) : Reported n e (s.homedTakes n' c r).event := by
  unfold State.homedTakes
  (repeat' split) <;> simp (maxDischargeDepth := 30) [h, t]

@[simp] theorem crewTakes_reported {n : Nat} {e : EventUnit} {s : State} (n' c r o) (h : Reported n e s.event)
    (t : s.control.uptime = n) : Reported n e (s.crewTakes n' c r o).event := by
  unfold State.crewTakes
  (repeat' split) <;> simp (maxDischargeDepth := 30) [h, t]

@[simp] theorem serviceTakes_reported {n : Nat} {e : EventUnit} {s : State} (n' c b r o) (h : Reported n e s.event)
    (t : s.control.uptime = n) : Reported n e (s.serviceTakes n' c b r o).event := by
  unfold State.serviceTakes
  dsimp only
  (repeat' split) <;> simp (maxDischargeDepth := 30) [h, t]

@[simp] theorem leaveCrew_reported {n : Nat} {e : EventUnit} {s : State} (n' c) (h : Reported n e s.event)
    (t : s.control.uptime = n) : Reported n e (s.leaveCrew n' c).event := by
  unfold State.leaveCrew
  dsimp only
  (repeat' split) <;> simp (maxDischargeDepth := 30) [h, t]

@[simp] theorem keyTakes_reported {n : Nat} {e : EventUnit} {s : State} (n' c b k) (h : Reported n e s.event)
    (t : s.control.uptime = n) : Reported n e (s.keyTakes n' c b k).event := by
  unfold State.keyTakes
  dsimp only
  (repeat' split) <;> simp (maxDischargeDepth := 30) [h, t]

@[simp] theorem newReport_reported {n : Nat} {e : EventUnit} {s : State} (n' c b r) (h : Reported n e s.event)
    (t : s.control.uptime = n) : Reported n e (s.newReport n' c b r).event := by
  unfold State.newReport
  dsimp only
  (repeat' split) <;> simp (maxDischargeDepth := 30) [h, t]

@[simp] theorem takeReport_reported {n : Nat} {e : EventUnit} {s : State} (n' c r) (h : Reported n e s.event)
    (t : s.control.uptime = n) : Reported n e (s.takeReport n' c r).event := by
  unfold State.takeReport
  dsimp only
  (repeat' split) <;> simp (maxDischargeDepth := 30) [h, t]

@[simp] theorem judgeCall_reported {n : Nat} {e : EventUnit} {s : State} (n' l c) (h : Reported n e s.event)
    (t : s.control.uptime = n) : Reported n e (s.judgeCall n' l c).event := by
  unfold State.judgeCall
  dsimp only
  (repeat' split) <;> simp (maxDischargeDepth := 30) [h, t]

@[simp] theorem takeTaken_reported {n : Nat} {e : EventUnit} {s : State} (n' c l) (h : Reported n e s.event)
    (t : s.control.uptime = n) : Reported n e (s.takeTaken n' c l).event := by
  unfold State.takeTaken
  dsimp only
  (repeat' split) <;> simp (maxDischargeDepth := 30) [h, t]

@[simp] theorem takeRefused_reported {n : Nat} {e : EventUnit} {s : State} (n' c l r) (h : Reported n e s.event)
    (t : s.control.uptime = n) : Reported n e (s.takeRefused n' c l r).event := by
  unfold State.takeRefused
  (repeat' split) <;> simp (maxDischargeDepth := 30) [h, t]

@[simp] theorem takeAsk_reported {n : Nat} {e : EventUnit} {s : State} (n' c l) (h : Reported n e s.event)
    (t : s.control.uptime = n) : Reported n e (s.takeAsk n' c l).event := by
  unfold State.takeAsk
  (repeat' split) <;> simp (maxDischargeDepth := 30) [h, t]

@[simp] theorem judgeFrame_reported {n : Nat} {e : EventUnit} {s : State} (n' f) (h : Reported n e s.event)
    (t : s.control.uptime = n) : Reported n e (s.judgeFrame n' f).event := by
  unfold State.judgeFrame
  (repeat' split) <;> simp (maxDischargeDepth := 30) [h, t]

@[simp] theorem receiveOn_reported {n : Nat} {e : EventUnit} (n') {s : State} (b) (h : Reported n e s.event)
    (t : s.control.uptime = n) : Reported n e (State.receiveOn n' s b).event := by
  unfold State.receiveOn
  dsimp only
  (repeat' split) <;> simp (maxDischargeDepth := 30) [h, t]

@[simp] theorem regroup_reported {n : Nat} {e : EventUnit} {s : State} (n' c) (h : Reported n e s.event)
    (t : s.control.uptime = n) : Reported n e (s.regroup n' c).event := by
  unfold State.regroup
  (repeat' split) <;> simp (maxDischargeDepth := 30) [h, t]

@[simp] theorem dropCar_reported {n : Nat} {e : EventUnit} {s : State} (n' c) (h : Reported n e s.event)
    (t : s.control.uptime = n) : Reported n e (s.dropCar n' c).event := by
  unfold State.dropCar
  (repeat' split) <;> simp (maxDischargeDepth := 30) [h, t]

@[simp] theorem rebindCar_reported {n : Nat} {e : EventUnit} {s : State} (old) (n') (h : Reported n e s.event)
    (t : s.control.uptime = n) : Reported n e (State.rebindCar old s n').event := by
  unfold State.rebindCar
  (repeat' split) <;> simp (maxDischargeDepth := 30) [h, t]

@[simp] theorem rebindLift_reported {n : Nat} {e : EventUnit} {s : State} (old) (h : Reported n e s.event)
    (t : s.control.uptime = n) : Reported n e (s.rebindLift old).event := by
  have k := Reported.fold (n := n) (e := e) (f := State.rebindCar old) (fun s l h t => by constructor <;> simp (maxDischargeDepth := 30) [h, t]) (span 1 6) s h t
  exact guardChange_reported k.1 k.2

@[simp] theorem setPoint_reported {n : Nat} {e : EventUnit} {s : State} (d p) (h : Reported n e s.event)
    (t : s.control.uptime = n) : Reported n e (s.setPoint d p).event := by
  simp (maxDischargeDepth := 30) [State.setPoint, h, t]

@[simp] theorem joinRelock_reported {n : Nat} {e : EventUnit} {s : State} (d p) (h : Reported n e s.event)
    (t : s.control.uptime = n) : Reported n e (s.joinRelock d p).event := by
  simp (maxDischargeDepth := 30) [State.joinRelock, h, t]

@[simp] theorem leaveRelock_reported {n : Nat} {e : EventUnit} {s : State} (d) (h : Reported n e s.event)
    (t : s.control.uptime = n) : Reported n e (s.leaveRelock d).event := by
  simp (maxDischargeDepth := 30) [State.leaveRelock, h, t]

@[simp] theorem demandBegins_reported {n : Nat} {e : EventUnit} {s : State} (d) (h : Reported n e s.event)
    (t : s.control.uptime = n) : Reported n e (s.demandBegins d).event := by
  unfold State.demandBegins
  (repeat' split) <;> simp (maxDischargeDepth := 30) [h, t]

@[simp] theorem toRelock_reported {n : Nat} {e : EventUnit} {s : State} (d p) (h : Reported n e s.event)
    (t : s.control.uptime = n) : Reported n e (s.toRelock d p).event := by
  unfold State.toRelock
  (repeat' split) <;> simp (maxDischargeDepth := 30) [h, t]

@[simp] theorem demandEnds_reported {n : Nat} {e : EventUnit} {s : State} (d) (h : Reported n e s.event)
    (t : s.control.uptime = n) : Reported n e (s.demandEnds d).event := by
  unfold State.demandEnds
  (repeat' split) <;> simp (maxDischargeDepth := 30) [h, t]

@[simp] theorem takeDemand_reported {n : Nat} {e : EventUnit} {s : State} (d b) (h : Reported n e s.event)
    (t : s.control.uptime = n) : Reported n e (s.takeDemand d b).event := by
  unfold State.takeDemand
  dsimp only
  (repeat' split) <;> simp (maxDischargeDepth := 30) [h, t]

@[simp] theorem reevaluate_reported {n : Nat} {e : EventUnit} {s : State} (b) (h : Reported n e s.event)
    (t : s.control.uptime = n) : Reported n e (s.reevaluate b).event := by
  exact (Reported.fold (fun s l h t => by constructor <;> simp (maxDischargeDepth := 30) [h, t]) _ _ h t).1

@[simp] theorem flagHeldOpen_reported {n : Nat} {e : EventUnit} {s : State} (d p t') (h : Reported n e s.event)
    (t : s.control.uptime = n) : Reported n e (s.flagHeldOpen d p t').event := by
  simp (maxDischargeDepth := 30) [State.flagHeldOpen, h, t]

@[simp] theorem freezeEndsAt_reported {n : Nat} {e : EventUnit} {s : State} (d) (h : Reported n e s.event)
    (t : s.control.uptime = n) : Reported n e (s.freezeEndsAt d).event := by
  unfold State.freezeEndsAt
  (repeat' split) <;> simp (maxDischargeDepth := 30) [h, t]

@[simp] theorem timeOpen_reported {n : Nat} {e : EventUnit} {s : State} (d) (h : Reported n e s.event)
    (t : s.control.uptime = n) : Reported n e (s.timeOpen d).event := by
  unfold State.timeOpen
  (repeat' split) <;> simp (maxDischargeDepth := 30) [h, t]

@[simp] theorem doorTakes_reported {n : Nat} {e : EventUnit} {s : State} (b old new) (h : Reported n e s.event)
    (t : s.control.uptime = n) : Reported n e (s.doorTakes b old new).event := by
  unfold State.doorTakes
  dsimp only
  split
  · exact (Reported.fold (fun s l h t => by constructor <;> simp (maxDischargeDepth := 30) [h, t]) _ _ (by simp (maxDischargeDepth := 30) [h, t]) (by simp [t])).1
  · simp (maxDischargeDepth := 30) [h, t]

@[simp] theorem faultLock_reported {n : Nat} {e : EventUnit} {s : State} (d p) (h : Reported n e s.event)
    (t : s.control.uptime = n) : Reported n e (s.faultLock d p).event := by
  simp (maxDischargeDepth := 30) [State.faultLock, h, t]

@[simp] theorem judgePoint_reported {n : Nat} {e : EventUnit} {s : State} (d p b c) (h : Reported n e s.event)
    (t : s.control.uptime = n) : Reported n e (s.judgePoint d p b c).event := by
  unfold State.judgePoint
  (repeat' split) <;> simp (maxDischargeDepth := 30) [h, t]

@[simp] theorem scanPoint_reported {n : Nat} {e : EventUnit} {s : State} (d r) (h : Reported n e s.event)
    (t : s.control.uptime = n) : Reported n e (s.scanPoint d r).event := by
  unfold State.scanPoint
  dsimp only
  (repeat' split) <;> simp (maxDischargeDepth := 30) [h, t]

@[simp] theorem recoverPoint_reported {n : Nat} {e : EventUnit} {s : State} (d r) (h : Reported n e s.event)
    (t : s.control.uptime = n) : Reported n e (s.recoverPoint d r).event := by
  unfold State.recoverPoint
  dsimp only
  (repeat' split) <;> simp (maxDischargeDepth := 30) [h, t]

@[simp] theorem setExpander_reported {n : Nat} {e : EventUnit} {s : State} (e' x) (h : Reported n e s.event)
    (t : s.control.uptime = n) : Reported n e (s.setExpander e' x).event := by
  simp (maxDischargeDepth := 30) [State.setExpander, h, t]

@[simp] theorem losePoint_reported {n : Nat} {e : EventUnit} {s : State} (d) (h : Reported n e s.event)
    (t : s.control.uptime = n) : Reported n e (s.losePoint d).event := by
  unfold State.losePoint
  (repeat' split) <;> simp (maxDischargeDepth := 30) [h, t]

@[simp] theorem pacePoint_reported {n : Nat} {e : EventUnit} {s : State} (d) (h : Reported n e s.event)
    (t : s.control.uptime = n) : Reported n e (s.pacePoint d).event := by
  unfold State.pacePoint
  (repeat' split) <;> simp (maxDischargeDepth := 30) [h, t]

@[simp] theorem putHost_reported {n : Nat} {e : EventUnit} {s : State} (d v) (h : Reported n e s.event)
    (t : s.control.uptime = n) : Reported n e (s.putHost d v).event := by
  unfold State.putHost
  (repeat' split) <;> simp (maxDischargeDepth := 30) [h, t]

@[simp] theorem rebindExpander_reported {n : Nat} {e : EventUnit} {s : State} (old) (e') (h : Reported n e s.event)
    (t : s.control.uptime = n) : Reported n e (State.rebindExpander old s e').event := by
  unfold State.rebindExpander
  (repeat' split) <;> simp (maxDischargeDepth := 30) [h, t]

@[simp] theorem retime_reported {n : Nat} {e : EventUnit} {s : State} (d p) (h : Reported n e s.event)
    (t : s.control.uptime = n) : Reported n e (s.retime d p).event := by
  unfold State.retime
  (repeat' split) <;> simp (maxDischargeDepth := 30) [h, t]

@[simp] theorem rebindPoint_reported {n : Nat} {e : EventUnit} {s : State} (d) (h : Reported n e s.event)
    (t : s.control.uptime = n) : Reported n e (s.rebindPoint d).event := by
  unfold State.rebindPoint
  (repeat' split) <;> simp (maxDischargeDepth := 30) [h, t]

@[simp] theorem settleNewPoint_reported {n : Nat} {e : EventUnit} {s : State} (old) (d) (h : Reported n e s.event)
    (t : s.control.uptime = n) : Reported n e (State.settleNewPoint old s d).event := by
  unfold State.settleNewPoint
  (repeat' split) <;> simp (maxDischargeDepth := 30) [h, t]

@[simp] theorem rebindDoors_reported {n : Nat} {e : EventUnit} {s : State} (old) (h : Reported n e s.event)
    (t : s.control.uptime = n) : Reported n e (s.rebindDoors old).event := by
  have k := Reported.fold (n := n) (e := e) (f := State.rebindExpander old) (fun s l h t => by constructor <;> simp (maxDischargeDepth := 30) [h, t]) (span 1 12) s h t
  have k := Reported.fold (n := n) (e := e) (f := State.rebindPoint) (fun s l h t => by constructor <;> simp (maxDischargeDepth := 30) [h, t]) (span 1 96) _ k.1 k.2
  exact (Reported.fold (n := n) (e := e) (f := State.settleNewPoint old) (fun s l h t => by constructor <;> simp (maxDischargeDepth := 30) [h, t]) (span 1 96) _ k.1 k.2).1

@[simp] theorem clearPermit_reported {n : Nat} {e : EventUnit} {s : State} (h : Reported n e s.event)
    (t : s.control.uptime = n) : Reported n e s.clearPermit.event := by
  simp (maxDischargeDepth := 30) [State.clearPermit, h, t]

@[simp] theorem setEngine_reported {n : Nat} {e : EventUnit} {s : State} (e') (h : Reported n e s.event)
    (t : s.control.uptime = n) : Reported n e (s.setEngine e').event := by
  simp (maxDischargeDepth := 30) [State.setEngine, h, t]

@[simp] theorem suspendErase_reported {n : Nat} {e : EventUnit} {s : State} (j c t') (h : Reported n e s.event)
    (t : s.control.uptime = n) : Reported n e (s.suspendErase j c t').event := by
  simp (maxDischargeDepth := 30) [State.suspendErase, h, t]

@[simp] theorem resumeTest_reported {n : Nat} {e : EventUnit} {s : State} (b) (h : Reported n e s.event)
    (t : s.control.uptime = n) : Reported n e (s.resumeTest b).event := by
  unfold State.resumeTest
  (repeat' split) <;> simp (maxDischargeDepth := 30) [h, t]

@[simp] theorem storeTakesFreeze_reported {n : Nat} {e : EventUnit} {s : State} (old new) (h : Reported n e s.event)
    (t : s.control.uptime = n) : Reported n e (s.storeTakesFreeze old new).event := by
  unfold State.storeTakesFreeze
  (repeat' split) <;> simp (maxDischargeDepth := 30) [h, t]

@[simp] theorem judgeRead_reported {n : Nat} {e : EventUnit} {s : State} (r) (h : Reported n e s.event)
    (t : s.control.uptime = n) : Reported n e (s.judgeRead r).1.event := by
  unfold State.judgeRead
  dsimp only
  (repeat' split) <;> simp (maxDischargeDepth := 30) [h, t]

@[simp] theorem beginRead_reported {n : Nat} {e : EventUnit} {s : State} (p c b) (h : Reported n e s.event)
    (t : s.control.uptime = n) : Reported n e (s.beginRead p c b).1.event := by
  simp (maxDischargeDepth := 30) [State.beginRead, h, t]

@[simp] theorem endRead_reported {n : Nat} {e : EventUnit} {s : State} (p) (h : Reported n e s.event)
    (t : s.control.uptime = n) : Reported n e (s.endRead p).event := by
  unfold State.endRead
  (repeat' split) <;> simp (maxDischargeDepth := 30) [h, t]

@[simp] theorem setProg_reported {n : Nat} {e : EventUnit} {s : State} (p r) (h : Reported n e s.event)
    (t : s.control.uptime = n) : Reported n e (s.setProg p r).event := by
  unfold State.setProg
  (repeat' split) <;> simp (maxDischargeDepth := 30) [h, t]

@[simp] theorem raiseProgState_reported {n : Nat} {e : EventUnit} {s : State} (p) (h : Reported n e s.event)
    (t : s.control.uptime = n) : Reported n e (s.raiseProgState p).event := by
  unfold State.raiseProgState
  (repeat' split) <;> simp (maxDischargeDepth := 30) [h, t]

@[simp] theorem substitute_reported {n : Nat} {e : EventUnit} {s : State} (p c b m) (h : Reported n e s.event)
    (t : s.control.uptime = n) : Reported n e (s.substitute p c b m).event := by
  unfold State.substitute
  dsimp only
  (repeat' split) <;> simp (maxDischargeDepth := 30) [h, t]

@[simp] theorem failRead_reported {n : Nat} {e : EventUnit} {s : State} (r) (h : Reported n e s.event)
    (t : s.control.uptime = n) : Reported n e (s.failRead r).event := by
  simp (maxDischargeDepth := 30) [State.failRead, h, t]

@[simp] theorem startStream_reported {n : Nat} {e : EventUnit} {s : State} (p) (h : Reported n e s.event)
    (t : s.control.uptime = n) : Reported n e (s.startStream p).event := by
  unfold State.startStream
  dsimp only
  (repeat' split) <;> simp (maxDischargeDepth := 30) [h, t]

@[simp] theorem handBack_reported {n : Nat} {e : EventUnit} {s : State} (p) (h : Reported n e s.event)
    (t : s.control.uptime = n) : Reported n e (s.handBack p).event := by
  unfold State.handBack
  (repeat' split) <;> simp (maxDischargeDepth := 30) [h, t]

@[simp] theorem startClip_reported {n : Nat} {e : EventUnit} {s : State} (p c) (h : Reported n e s.event)
    (t : s.control.uptime = n) : Reported n e (s.startClip p c).event := by
  unfold State.startClip
  dsimp only
  (repeat' split) <;> simp (maxDischargeDepth := 30) [h, t]

@[simp] theorem startStep_reported {n : Nat} {e : EventUnit} {s : State} (p n' st) (h : Reported n e s.event)
    (t : s.control.uptime = n) : Reported n e (s.startStep p n' st).event := by
  unfold State.startStep
  (repeat' split) <;> simp (maxDischargeDepth := 30) [h, t]

@[simp] theorem endStep_reported {n : Nat} {e : EventUnit} {s : State} (p) (h : Reported n e s.event)
    (t : s.control.uptime = n) : Reported n e (s.endStep p).1.event := by
  unfold State.endStep
  dsimp only
  (repeat' split) <;> simp (maxDischargeDepth := 30) [h, t]

@[simp] theorem playAnnouncement_reported {n : Nat} {e : EventUnit} {s : State} (a) (h : Reported n e s.event)
    (t : s.control.uptime = n) : Reported n e (s.playAnnouncement a).1.event := by
  unfold State.playAnnouncement
  dsimp only
  (repeat' split) <;> simp (maxDischargeDepth := 30) [h, t]

@[simp] theorem takeHead_reported {n : Nat} {e : EventUnit} {s : State} (h : Reported n e s.event)
    (t : s.control.uptime = n) : Reported n e s.takeHead.1.event := by
  unfold State.takeHead
  (repeat' split) <;> simp (maxDischargeDepth := 30) [h, t]

@[simp] theorem runOne_reported {n : Nat} {e : EventUnit} {s : State} (p a) (h : Reported n e s.event)
    (t : s.control.uptime = n) : Reported n e (s.runOne p a).1.event := by
  unfold State.runOne
  (repeat' split) <;> simp (maxDischargeDepth := 30) [h, t]

@[simp] theorem runActs_reported {n : Nat} {e : EventUnit} {s : State} (k : Nat) (p : Prog) (a : RunAct) (h : Reported n e s.event)
    (t : s.control.uptime = n) : Reported n e (State.runActs k s p a).event := by
  induction k generalizing s a with
  | zero => exact h
  | succ k ih =>
    have r := runOne_reported p a h t
    have u : (s.runOne p a).1.control.uptime = n := by simp [t]
    unfold State.runActs
    split
    · rename_i s' x; rw [x] at r; exact r
    · rename_i s' a' x; rw [x] at r u; exact ih a' r u

@[simp] theorem finishStep_reported {n : Nat} {e : EventUnit} {s : State} (p) (h : Reported n e s.event)
    (t : s.control.uptime = n) : Reported n e (s.finishStep p).event := by
  simp (maxDischargeDepth := 30) [State.finishStep, h, t]

@[simp] theorem beginRun_reported {n : Nat} {e : EventUnit} {s : State} (p c) (h : Reported n e s.event)
    (t : s.control.uptime = n) : Reported n e (s.beginRun p c).event := by
  simp (maxDischargeDepth := 30) [State.beginRun, h, t]

@[simp] theorem stopProg_reported {n : Nat} {e : EventUnit} {s : State} (p) (h : Reported n e s.event)
    (t : s.control.uptime = n) : Reported n e (s.stopProg p).event := by
  simp (maxDischargeDepth := 30) [State.stopProg, h, t]

@[simp] theorem setClaims_reported {n : Nat} {e : EventUnit} {s : State} (p c) (h : Reported n e s.event)
    (t : s.control.uptime = n) : Reported n e (s.setClaims p c).event := by
  unfold State.setClaims
  dsimp only
  (repeat' split) <;> simp (maxDischargeDepth := 30) [h, t]

@[simp] theorem abandonTenant_reported {n : Nat} {e : EventUnit} {s : State} (h : Reported n e s.event)
    (t : s.control.uptime = n) : Reported n e s.abandonTenant.event := by
  simp (maxDischargeDepth := 30) [State.abandonTenant, h, t]

@[simp] theorem tenantDone_reported {n : Nat} {e : EventUnit} {s : State} (t' o) (h : Reported n e s.event)
    (t : s.control.uptime = n) : Reported n e (s.tenantDone t' o).event := by
  simp (maxDischargeDepth := 30) [State.tenantDone, h, t]

@[simp] theorem endPlaying_reported {n : Nat} {e : EventUnit} {s : State} (o) (h : Reported n e s.event)
    (t : s.control.uptime = n) : Reported n e (s.endPlaying o).event := by
  unfold State.endPlaying
  (repeat' split) <;> simp (maxDischargeDepth := 30) [h, t]

@[simp] theorem endAllTenants_reported {n : Nat} {e : EventUnit} {s : State} (o) (h : Reported n e s.event)
    (t : s.control.uptime = n) : Reported n e (s.endAllTenants o).event := by
  unfold State.endAllTenants
  exact (Reported.fold (fun s l h t => by constructor <;> simp (maxDischargeDepth := 30) [h, t]) _ _ (by simp (maxDischargeDepth := 30) [h, t]) (by simp [t])).1

@[simp] theorem startNext_reported {n : Nat} {e : EventUnit} {s : State} (h : Reported n e s.event)
    (t : s.control.uptime = n) : Reported n e s.startNext.event := by
  simp (maxDischargeDepth := 30) [State.startNext, h, t]

@[simp] theorem settleHolders_reported {n : Nat} {e : EventUnit} {s : State} (h : Reported n e s.event)
    (t : s.control.uptime = n) : Reported n e s.settleHolders.event := by
  simp (maxDischargeDepth := 30) [State.settleHolders, h, t]

@[simp] theorem announceTakes_reported {n : Nat} {e : EventUnit} {s : State} (old new) (h : Reported n e s.event)
    (t : s.control.uptime = n) : Reported n e (s.announceTakes old new).event := by
  unfold State.announceTakes
  (repeat' split) <;> simp (maxDischargeDepth := 30) [h, t]

@[simp] theorem raiseLiveState_reported {n : Nat} {e : EventUnit} {s : State} (h : Reported n e s.event)
    (t : s.control.uptime = n) : Reported n e s.raiseLiveState.event := by
  simp (maxDischargeDepth := 30) [State.raiseLiveState, h, t]

@[simp] theorem handLive_reported {n : Nat} {e : EventUnit} {s : State} (h : Reported n e s.event)
    (t : s.control.uptime = n) : Reported n e s.handLive.event := by
  simp (maxDischargeDepth := 30) [State.handLive, h, t]

@[simp] theorem resync_reported {n : Nat} {e : EventUnit} {s : State} (h : Reported n e s.event)
    (t : s.control.uptime = n) : Reported n e s.resync.event := by
  unfold State.resync
  dsimp only
  (repeat' split) <;> simp (maxDischargeDepth := 30) [h, t]

@[simp] theorem prefillTest_reported {n : Nat} {e : EventUnit} {s : State} (h : Reported n e s.event)
    (t : s.control.uptime = n) : Reported n e s.prefillTest.event := by
  unfold State.prefillTest
  dsimp only
  (repeat' split) <;> simp (maxDischargeDepth := 30) [h, t]

@[simp] theorem blockArrives_reported {n : Nat} {e : EventUnit} {s : State} (b) (h : Reported n e s.event)
    (t : s.control.uptime = n) : Reported n e (s.blockArrives b).event := by
  unfold State.blockArrives
  (repeat' split) <;> simp (maxDischargeDepth := 30) [h, t]

@[simp] theorem gather_reported {n : Nat} {e : EventUnit} {s : State} (x) (h : Reported n e s.event)
    (t : s.control.uptime = n) : Reported n e (s.gather x).event := by
  unfold State.gather
  dsimp only
  (repeat' split) <;> simp (maxDischargeDepth := 30) [h, t]

@[simp] theorem liveOff_reported {n : Nat} {e : EventUnit} {s : State} (h : Reported n e s.event)
    (t : s.control.uptime = n) : Reported n e s.liveOff.event := by
  unfold State.liveOff
  (repeat' split) <;> simp (maxDischargeDepth := 30) [h, t]

@[simp] theorem rebindTenant_reported {n : Nat} {e : EventUnit} {s : State} (h : Reported n e s.event)
    (t : s.control.uptime = n) : Reported n e s.rebindTenant.event := by
  unfold State.rebindTenant
  dsimp only
  (repeat' split) <;> simp (maxDischargeDepth := 30) [h, t]

@[simp] theorem rebindAnnouncements_reported {n : Nat} {e : EventUnit} {s : State} (h : Reported n e s.event)
    (t : s.control.uptime = n) : Reported n e s.rebindAnnouncements.event := by
  simp (maxDischargeDepth := 30) [State.rebindAnnouncements, h, t]

@[simp] theorem dropClips_reported {n : Nat} {e : EventUnit} {s : State} (b k) (h : Reported n e s.event)
    (t : s.control.uptime = n) : Reported n e (s.dropClips b k).event := by
  unfold State.dropClips
  dsimp only
  exact (Reported.fold (f := State.failRead) (fun s l h t => by constructor <;> simp (maxDischargeDepth := 30) [h, t]) _ _ (by exact h) (by exact t)).1

@[simp] theorem storeTaken_reported {n : Nat} {e : EventUnit} {s : State} (h : Reported n e s.event)
    (t : s.control.uptime = n) : Reported n e s.storeTaken.event := by
  simp (maxDischargeDepth := 30) [State.storeTaken, h, t]

@[simp] theorem deliverSettled_reported {n : Nat} {e : EventUnit} {s : State} (b) (h : Reported n e s.event)
    (t : s.control.uptime = n) : Reported n e (s.deliverSettled b).event := by
  exact (Reported.fold (fun s l h t => by constructor <;> simp (maxDischargeDepth := 30) [h, t]) _ _ h t).1

@[simp] theorem rejudgeReads_reported {n : Nat} {e : EventUnit} {s : State} (h : Reported n e s.event)
    (t : s.control.uptime = n) : Reported n e s.rejudgeReads.event := by
  exact (Reported.fold (fun s l h t => by
    dsimp only
    split <;> constructor <;> simp (maxDischargeDepth := 30) [h, t]) _ _ h t).1

@[simp] theorem writeFails_reported {n : Nat} {e : EventUnit} {s : State} (b k pl) (h : Reported n e s.event)
    (t : s.control.uptime = n) : Reported n e (s.writeFails b k pl).event := by
  simp (maxDischargeDepth := 30) [State.writeFails, h, t]

@[simp] theorem commitDone_reported {n : Nat} {e : EventUnit} {s : State} (e') (h : Reported n e s.event)
    (t : s.control.uptime = n) : Reported n e (s.commitDone e').event := by
  simp (maxDischargeDepth := 30) [State.commitDone, h, t]

@[simp] theorem leaveMaintenance_reported {n : Nat} {e : EventUnit} {s : State} (h : Reported n e s.event)
    (t : s.control.uptime = n) : Reported n e s.leaveMaintenance.event := by
  unfold State.leaveMaintenance
  (repeat' split) <;> simp (maxDischargeDepth := 30) [h, t]

@[simp] theorem setZone_reported {n : Nat} {e : EventUnit} {s : State} (z r) (h : Reported n e s.event)
    (t : s.control.uptime = n) : Reported n e (s.setZone z r).event := by
  simp (maxDischargeDepth := 30) [State.setZone, h, t]

@[simp] theorem setIncident_reported {n : Nat} {e : EventUnit} {s : State} (i) (h : Reported n e s.event)
    (t : s.control.uptime = n) : Reported n e (s.setIncident i).event := by
  simp (maxDischargeDepth := 30) [State.setIncident, h, t]

@[simp] theorem recomputeDemand_reported {n : Nat} {e : EventUnit} {s : State} (h : Reported n e s.event)
    (t : s.control.uptime = n) : Reported n e s.recomputeDemand.event := by
  unfold State.recomputeDemand
  dsimp only
  (repeat' split) <;> simp (maxDischargeDepth := 30) [h, t]

@[simp] theorem incidentOpened_reported {n : Nat} {e : EventUnit} {s : State} (w) (h : Reported n e s.event)
    (t : s.control.uptime = n) : Reported n e (s.incidentOpened w).event := by
  unfold State.incidentOpened
  (repeat' split) <;> simp (maxDischargeDepth := 30) [h, t]

@[simp] theorem openIncident_reported {n : Nat} {e : EventUnit} {s : State} (o st sev ms a e') (h : Reported n e s.event)
    (t : s.control.uptime = n) : Reported n e (s.openIncident o st sev ms a e').1.event := by
  simp (maxDischargeDepth := 30) [State.openIncident, h, t]

@[simp] theorem resound_reported {n : Nat} {e : EventUnit} {s : State} (i c) (h : Reported n e s.event)
    (t : s.control.uptime = n) : Reported n e (s.resound i c).event := by
  unfold State.resound
  (repeat' split) <;> simp (maxDischargeDepth := 30) [h, t]

@[simp] theorem raiseSeverity_reported {n : Nat} {e : EventUnit} {s : State} (i z) (h : Reported n e s.event)
    (t : s.control.uptime = n) : Reported n e (s.raiseSeverity i z).event := by
  unfold State.raiseSeverity
  (repeat' split) <;> simp (maxDischargeDepth := 30) [h, t]

@[simp] theorem joinIncident_reported {n : Nat} {e : EventUnit} {s : State} (i z r m) (h : Reported n e s.event)
    (t : s.control.uptime = n) : Reported n e (s.joinIncident i z r m).event := by
  unfold State.joinIncident
  dsimp only
  (repeat' split) <;> simp (maxDischargeDepth := 30) [h, t]

@[simp] theorem openForZone_reported {n : Nat} {e : EventUnit} {s : State} (z r e') (h : Reported n e s.event)
    (t : s.control.uptime = n) : Reported n e (s.openForZone z r e').event := by
  simp (maxDischargeDepth := 30) [State.openForZone, h, t]

@[simp] theorem placeZone_reported {n : Nat} {e : EventUnit} {s : State} (z) (h : Reported n e s.event)
    (t : s.control.uptime = n) : Reported n e (s.placeZone z).event := by
  unfold State.placeZone
  (repeat' split) <;> simp (maxDischargeDepth := 30) [h, t]

@[simp] theorem latchZone_reported {n : Nat} {e : EventUnit} {s : State} (z r l) (h : Reported n e s.event)
    (t : s.control.uptime = n) : Reported n e (s.latchZone z r l).event := by
  simp (maxDischargeDepth := 30) [State.latchZone, h, t]

@[simp] theorem startZone_reported {n : Nat} {e : EventUnit} {s : State} (z r l) (h : Reported n e s.event)
    (t : s.control.uptime = n) : Reported n e (s.startZone z r l).event := by
  unfold State.startZone
  dsimp only
  (repeat' split) <;> simp (maxDischargeDepth := 30) [h, t]

@[simp] theorem placeIfAlarm_reported {n : Nat} {e : EventUnit} {s : State} (z) (h : Reported n e s.event)
    (t : s.control.uptime = n) : Reported n e (s.placeIfAlarm z).event := by
  unfold State.placeIfAlarm
  (repeat' split) <;> simp (maxDischargeDepth := 30) [h, t]

@[simp] theorem memberRises_reported {n : Nat} {e : EventUnit} {s : State} (z r) (h : Reported n e s.event)
    (t : s.control.uptime = n) : Reported n e (s.memberRises z r).event := by
  unfold State.memberRises
  (repeat' split) <;> simp (maxDischargeDepth := 30) [h, t]

@[simp] theorem zoneTakesSignal_reported {n : Nat} {e : EventUnit} {s : State} (z sig) (h : Reported n e s.event)
    (t : s.control.uptime = n) : Reported n e (s.zoneTakesSignal z sig).event := by
  unfold State.zoneTakesSignal
  dsimp only
  (repeat' split) <;> simp (maxDischargeDepth := 30) [h, t]

@[simp] theorem zoneTakesFault_reported {n : Nat} {e : EventUnit} {s : State} (z b) (h : Reported n e s.event)
    (t : s.control.uptime = n) : Reported n e (s.zoneTakesFault z b).event := by
  unfold State.zoneTakesFault
  dsimp only
  (repeat' split) <;> simp (maxDischargeDepth := 30) [h, t]

@[simp] theorem releaseMember_reported {n : Nat} {e : EventUnit} {s : State} (m) (h : Reported n e s.event)
    (t : s.control.uptime = n) : Reported n e (s.releaseMember m).event := by
  unfold State.releaseMember
  (repeat' split) <;> simp (maxDischargeDepth := 30) [h, t]

@[simp] theorem setChan_reported {n : Nat} {e : EventUnit} {s : State} (n' c) (h : Reported n e s.event)
    (t : s.control.uptime = n) : Reported n e (s.setChan n' c).event := by
  simp (maxDischargeDepth := 30) [State.setChan, h, t]

@[simp] theorem handSignal_reported {n : Nat} {e : EventUnit} {s : State} (n') (h : Reported n e s.event)
    (t : s.control.uptime = n) : Reported n e (s.handSignal n').event := by
  unfold State.handSignal
  (repeat' split) <;> simp (maxDischargeDepth := 30) [h, t]

@[simp] theorem handFault_reported {n : Nat} {e : EventUnit} {s : State} (n') (h : Reported n e s.event)
    (t : s.control.uptime = n) : Reported n e (s.handFault n').event := by
  unfold State.handFault
  (repeat' split) <;> simp (maxDischargeDepth := 30) [h, t]

@[simp] theorem unknownTrouble_reported {n : Nat} {e : EventUnit} {s : State} (n' sig p) (h : Reported n e s.event)
    (t : s.control.uptime = n) : Reported n e (s.unknownTrouble n' sig p).event := by
  unfold State.unknownTrouble
  (repeat' split) <;> simp (maxDischargeDepth := 30) [h, t]

@[simp] theorem setSignal_reported {n : Nat} {e : EventUnit} {s : State} (n' c sig p) (h : Reported n e s.event)
    (t : s.control.uptime = n) : Reported n e (s.setSignal n' c sig p).event := by
  simp (maxDischargeDepth := 30) [State.setSignal, h, t]

@[simp] theorem handOn_reported {n : Nat} {e : EventUnit} {s : State} (m) (h : Reported n e s.event)
    (t : s.control.uptime = n) : Reported n e (s.handOn m).event := by
  unfold State.handOn
  dsimp only
  (repeat' split) <;> simp (maxDischargeDepth := 30) [h, t]

@[simp] theorem takeMeter_reported {n : Nat} {e : EventUnit} {s : State} (n' c b) (h : Reported n e s.event)
    (t : s.control.uptime = n) : Reported n e (s.takeMeter n' c b).event := by
  unfold State.takeMeter
  (repeat' split) <;> simp (maxDischargeDepth := 30) [h, t]

@[simp] theorem releaseMeter_reported {n : Nat} {e : EventUnit} {s : State} (n' c) (h : Reported n e s.event)
    (t : s.control.uptime = n) : Reported n e (s.releaseMeter n' c).event := by
  unfold State.releaseMeter
  (repeat' split) <;> simp (maxDischargeDepth := 30) [h, t]

@[simp] theorem recorded_reported {n : Nat} {e : EventUnit} {s : State} (ms) (h : Reported n e s.event)
    (t : s.control.uptime = n) : Reported n e (s.recorded ms).1.event := by
  unfold State.recorded
  (repeat' split) <;> simp (maxDischargeDepth := 30) [h, t]

@[simp] theorem unlockedPeriod_reported {n : Nat} {e : EventUnit} {s : State} (n' c p) (h : Reported n e s.event)
    (t : s.control.uptime = n) : Reported n e (s.unlockedPeriod n' c p).event := by
  unfold State.unlockedPeriod
  dsimp only
  (repeat' split) <;> simp (maxDischargeDepth := 30) [h, t]

@[simp] theorem lockedPeriod_reported {n : Nat} {e : EventUnit} {s : State} (n' c l p) (h : Reported n e s.event)
    (t : s.control.uptime = n) : Reported n e (s.lockedPeriod n' c l p).event := by
  unfold State.lockedPeriod
  dsimp only
  (repeat' split) <;> simp (maxDischargeDepth := 30) [h, t]

@[simp] theorem meterRise_reported {n : Nat} {e : EventUnit} {s : State} (n' c) (h : Reported n e s.event)
    (t : s.control.uptime = n) : Reported n e (s.meterRise n' c).event := by
  unfold State.meterRise
  (repeat' split) <;> simp (maxDischargeDepth := 30) [h, t]

@[simp] theorem meterFall_reported {n : Nat} {e : EventUnit} {s : State} (n' c) (h : Reported n e s.event)
    (t : s.control.uptime = n) : Reported n e (s.meterFall n' c).event := by
  unfold State.meterFall
  dsimp only
  (repeat' split) <;> simp (maxDischargeDepth := 30) [h, t]

@[simp] theorem lineTroubles_reported {n : Nat} {e : EventUnit} {s : State} (n' cl) (h : Reported n e s.event)
    (t : s.control.uptime = n) : Reported n e (s.lineTroubles n' cl).event := by
  unfold State.lineTroubles
  (repeat' split) <;> simp (maxDischargeDepth := 30) [h, t]

@[simp] theorem startingTest_reported {n : Nat} {e : EventUnit} {s : State} (h : Reported n e s.event)
    (t : s.control.uptime = n) : Reported n e s.startingTest.event := by
  unfold State.startingTest
  (repeat' split) <;> simp (maxDischargeDepth := 30) [h, t]

@[simp] theorem spotMean_reported {n : Nat} {e : EventUnit} {s : State} (l) (h : Reported n e s.event)
    (t : s.control.uptime = n) : Reported n e (s.spotMean l).1.event := by
  unfold State.spotMean
  dsimp only
  (repeat' split) <;> simp (maxDischargeDepth := 30) [h, t]

@[simp] theorem raiseSpotDone_reported {n : Nat} {e : EventUnit} {s : State} (n' r) (h : Reported n e s.event)
    (t : s.control.uptime = n) : Reported n e (s.raiseSpotDone n' r).event := by
  unfold State.raiseSpotDone
  (repeat' split) <;> simp (maxDischargeDepth := 30) [h, t]

@[simp] theorem becomeDriven_reported {n : Nat} {e : EventUnit} {s : State} (n' c) (h : Reported n e s.event)
    (t : s.control.uptime = n) : Reported n e (s.becomeDriven n' c).event := by
  unfold State.becomeDriven
  dsimp only
  (repeat' split) <;> simp (maxDischargeDepth := 30) [h, t]

@[simp] theorem becomeUndriven_reported {n : Nat} {e : EventUnit} {s : State} (n' c) (h : Reported n e s.event)
    (t : s.control.uptime = n) : Reported n e (s.becomeUndriven n' c).event := by
  unfold State.becomeUndriven
  dsimp only
  (repeat' split) <;> simp (maxDischargeDepth := 30) [h, t]

@[simp] theorem rebuildZones_reported {n : Nat} {e : EventUnit} {s : State} (h : Reported n e s.event)
    (t : s.control.uptime = n) : Reported n e s.rebuildZones.event := by
  simp (maxDischargeDepth := 30) [State.rebuildZones, h, t]

@[simp] theorem channelUnused_reported {n : Nat} {e : EventUnit} {s : State} (old) (n') (h : Reported n e s.event)
    (t : s.control.uptime = n) : Reported n e (State.channelUnused old s n').event := by
  unfold State.channelUnused
  dsimp only
  (repeat' split) <;> simp (maxDischargeDepth := 30) [h, t]

@[simp] theorem channelUsed_reported {n : Nat} {e : EventUnit} {s : State} (old) (n') (h : Reported n e s.event)
    (t : s.control.uptime = n) : Reported n e (State.channelUsed old s n').event := by
  unfold State.channelUsed
  (repeat' split) <;> simp (maxDischargeDepth := 30) [h, t]

@[simp] theorem reclassify_reported {n : Nat} {e : EventUnit} {s : State} (n') (h : Reported n e s.event)
    (t : s.control.uptime = n) : Reported n e (s.reclassify n').event := by
  unfold State.reclassify
  (repeat' split) <;> simp (maxDischargeDepth := 30) [h, t]

@[simp] theorem zoneTakesUp_reported {n : Nat} {e : EventUnit} {s : State} (z) (h : Reported n e s.event)
    (t : s.control.uptime = n) : Reported n e (s.zoneTakesUp z).event := by
  unfold State.zoneTakesUp
  dsimp only
  (repeat' split) <;> simp (maxDischargeDepth := 30) [h, t]

@[simp] theorem rebindSense_reported {n : Nat} {e : EventUnit} {s : State} (old) (h : Reported n e s.event)
    (t : s.control.uptime = n) : Reported n e (s.rebindSense old).event := by
  have k := Reported.fold (n := n) (e := e) (f := State.channelUnused old) (fun s l h t => by constructor <;> simp (maxDischargeDepth := 30) [h, t]) (span 1 24) s.rebuildZones (by simp (maxDischargeDepth := 30) [h, t]) (by simp [t])
  have k := Reported.fold (n := n) (e := e) (f := State.channelUsed old) (fun s l h t => by constructor <;> simp (maxDischargeDepth := 30) [h, t]) (span 1 24) _ k.1 k.2
  have k := Reported.fold (n := n) (e := e) (f := State.reclassify) (fun s l h t => by constructor <;> simp (maxDischargeDepth := 30) [h, t]) (span 1 24) _ k.1 k.2
  unfold State.rebindSense
  dsimp only
  exact (Reported.fold (n := n) (e := e) (f := State.zoneTakesUp) (fun s l h t => by constructor <;> simp (maxDischargeDepth := 30) [h, t]) (span 1 64) ((span 1 24).foldl State.reclassify ((span 1 24).foldl (State.channelUsed old) ((span 1 24).foldl (State.channelUnused old) s.rebuildZones))) k.1 k.2).1

end Sys2Proof.Machine
end

