-- ==== Sys2Proof/Laws/Requests.lean ====
section
/-! SUPPORT. A request: what its turn, its refusal and its reply do to the state. -/

namespace Sys2Proof.Machine

/-- A request in its turn is acted upon once its fields are good. -/
theorem request_taken {α : Type} {s : State} {kw : String} {f : List Text} {parse : List Text → Except Nat α}
    {act : State → α → State} {a : α} (h : s.turn kw f = true) (p : parse f = .ok a) :
    s.request kw f parse act = act (s.openRequest kw f) a := by simp [State.request, h, p]

/-- A request whose field `n` fails is refused. -/
theorem request_field {α : Type} {s : State} {kw : String} {f : List Text} {parse : List Text → Except Nat α}
    {act : State → α → State} {n : Nat} (h : s.turn kw f = true) (p : parse f = .error n) :
    s.request kw f parse act = (s.openRequest kw f).noField kw n := by simp [State.request, h, p]

/-- A request out of its turn changes nothing. -/
theorem request_waits {α : Type} {s : State} {kw : String} {f : List Text} {parse : List Text → Except Nat α}
    {act : State → α → State} (h : s.turn kw f = false) : s.request kw f parse act = s := by simp [State.request, h]

/-- A store request in its turn is acted upon once its fields are good, in MAINTENANCE, with the engine READY where that is asked. -/
theorem storeRequest_taken {α : Type} {s : State} {kw : String} {f : List Text} {parse : List Text → Except Nat α}
    {act : State → α → State} {r : Bool} {a : α} (h : s.turn kw f = true) (p : parse f = .ok a)
    (m : s.control.mode = .maintenance) (e : r = true → s.store.engine = .ready) :
    s.storeRequest kw f parse r act = act (s.openRequest kw f) a := by
  cases r with
  | false => simp [State.storeRequest, h, p, m]
  | true => simp [State.storeRequest, h, p, m, e rfl]

/-- The state while a request is handled. -/
theorem openRequest_eq (s : State) (kw : String) (f : List Text) :
    s.openRequest kw f = { s with
      line := { s.line with buffer := if s.line.buffer.isEmpty then [requestLine kw f] else s.line.buffer, sent := [] }
      lift := { s.lift with sent := [] } } := by
  unfold State.openRequest State.beginArrival
  dsimp only
  split <;> rfl

/-- The uptime of the arrival does not depend on the line. -/
@[simp] theorem openRequest_now (s : State) (kw : String) (f : List Text) : (s.openRequest kw f).now = s.now := by
  simp [State.now]

/-- An `OK` reply given while the line interface is as the request opened it. -/
theorem ok_of_line {s t : State} {kw w : String} {f : List Text} {fs : List Field}
    (h : t.line = (s.openRequest kw f).line) :
    t.ok w fs = { t with line := s.lineWith kw f ⟨[], s.okLine w fs⟩ } := by
  rw [openRequest_eq] at h
  simp [State.ok, State.reply, State.lineWith, State.okLine, State.mark, h, fWord]

/-- A refusal given while the line interface is as the request opened it. -/
theorem no_of_line {s t : State} {kw : String} {f : List Text} {r : String} {d : List Field}
    (h : t.line = (s.openRequest kw f).line) :
    t.no kw r d = { t with line := s.lineWith kw f ⟨[], s.noLine kw r d⟩ } := by
  rw [openRequest_eq] at h
  simp [State.no, State.reply, State.lineWith, State.noLine, State.mark, h, fWord]

/-- A request that is answered at once. -/
theorem ok_open (s : State) (kw w : String) (f : List Text) (fs : List Field) :
    (s.openRequest kw f).ok w fs = s.answered kw f (s.okLine w fs) := by
  rw [ok_of_line rfl, openRequest_eq]; rfl

/-- A request that is refused at once. -/
theorem no_open (s : State) (kw : String) (f : List Text) (r : String) (d : List Field) :
    (s.openRequest kw f).no kw r d = s.answered kw f (s.noLine kw r d) := by
  rw [no_of_line rfl, openRequest_eq]; rfl

end Sys2Proof.Machine
end

