-- ==== Sys2Proof/Laws/Tables.lean ====
section
/-! SUPPORT. Numbered tables: what each item is after one is replaced. -/

namespace Sys2Proof.Machine

variable {α : Type} {k : Nat}

/-- An item of a table is one of its numbers 1 to `k`. -/
theorem at1_range {v : Vector α k} {n : Nat} {a : α} (h : at1 v n = some a) : 1 ≤ n ∧ n ≤ k := by
  unfold at1 at h
  split at h
  · cases h
  · have : n - 1 < k := by
      by_contra hc
      rw [Vector.getElem?_eq_none (by omega)] at h
      cases h
    omega

/-- The replaced item is the new one. -/
theorem at1_put1_same {v : Vector α k} {n : Nat} {a b : α} (h : at1 v n = some b) : at1 (put1 v n a) n = some a := by
  have r := at1_range h
  unfold at1 put1
  have : n ≠ 0 := by omega
  simp only [if_neg this]
  rw [Vector.getElem?_setIfInBounds_self_of_lt (by omega)]

/-- The other items are as they were. -/
theorem at1_put1_ne {v : Vector α k} {n m : Nat} {a : α} (h : m ≠ n) : at1 (put1 v n a) m = at1 v m := by
  unfold at1 put1
  by_cases hm : m = 0
  · simp [hm]
  · by_cases hn : n = 0
    · simp [hn]
    · simp only [if_neg hm, if_neg hn]
      rw [Vector.getElem?_setIfInBounds_ne (by omega)]

/-- A record that was there is replaced. -/
theorem rec1_put1_same {v : Vector (Option α) k} {n : Nat} {a : Option α} {b : α} (h : rec1 v n = some b) :
    rec1 (put1 v n a) n = a := by
  unfold rec1 at h ⊢
  cases e : at1 v n with
  | none => simp [e] at h
  | some x => simp [at1_put1_same e]

/-- The other records are as they were. -/
theorem rec1_put1_ne {v : Vector (Option α) k} {n m : Nat} {a : Option α} (h : m ≠ n) : rec1 (put1 v n a) m = rec1 v m := by
  unfold rec1
  rw [at1_put1_ne h]

/-- The numbers of a span. -/
theorem mem_span {lo hi n : Nat} : n ∈ span lo hi ↔ lo ≤ n ∧ n ≤ hi := by
  unfold span
  simp only [List.mem_map, List.mem_range]
  constructor
  · rintro ⟨a, h, rfl⟩; omega
  · intro h; exact ⟨n - lo, by omega, by omega⟩

end Sys2Proof.Machine
end

