-- ==== Sys2Proof/Laws/State.lean ====
section
/-! SUPPORT. The named updates of a state: what each field and each record reads after one of them. -/

namespace Sys2Proof.Machine

/-! ### Fields of the unit an update writes -/

@[simp] theorem setChan_queue (s : State) (n : Nat) (c : Chan) : (s.setChan n c).sense.queue = s.sense.queue := rfl
@[simp] theorem setChan_chans (s : State) (n : Nat) (c : Chan) : (s.setChan n c).sense.chans = put1 s.sense.chans n c := rfl
@[simp] theorem setZone_zones (s : State) (z : Nat) (r : Zone) : (s.setZone z r).fire.zones = put1 s.fire.zones z (some r) := rfl
@[simp] theorem setZone_incidents (s : State) (z : Nat) (r : Zone) : (s.setZone z r).fire.incidents = s.fire.incidents := rfl
@[simp] theorem setZone_nextId (s : State) (z : Nat) (r : Zone) : (s.setZone z r).fire.nextId = s.fire.nextId := rfl
@[simp] theorem setZone_demand (s : State) (z : Nat) (r : Zone) : (s.setZone z r).fire.demand = s.fire.demand := rfl
@[simp] theorem setIncident_zones (s : State) (i : Incident) : (s.setIncident i).fire.zones = s.fire.zones := rfl
@[simp] theorem setIncident_nextId (s : State) (i : Incident) : (s.setIncident i).fire.nextId = s.fire.nextId := rfl
@[simp] theorem setIncident_demand (s : State) (i : Incident) : (s.setIncident i).fire.demand = s.fire.demand := rfl
@[simp] theorem setCar_cars (s : State) (n : Nat) (c : Car) : (s.setCar n c).lift.cars = put1 s.lift.cars n (some c) := rfl
@[simp] theorem setCar_guards (s : State) (n : Nat) (c : Car) : (s.setCar n c).lift.guards = s.lift.guards := rfl
@[simp] theorem setCar_latch (s : State) (n : Nat) (c : Car) : (s.setCar n c).lift.latch = s.lift.latch := rfl
@[simp] theorem setCar_rx (s : State) (n : Nat) (c : Car) : (s.setCar n c).lift.rx = s.lift.rx := rfl
@[simp] theorem setCar_sent (s : State) (n : Nat) (c : Car) : (s.setCar n c).lift.sent = s.lift.sent := rfl
@[simp] theorem sendFrame_cars (s : State) (n : Nat) (f : PartFrame) : (s.sendFrame n f).lift.cars = s.lift.cars := rfl
@[simp] theorem sendFrame_guards (s : State) (n : Nat) (f : PartFrame) : (s.sendFrame n f).lift.guards = s.lift.guards := rfl
@[simp] theorem sendFrame_latch (s : State) (n : Nat) (f : PartFrame) : (s.sendFrame n f).lift.latch = s.lift.latch := rfl
@[simp] theorem sendFrame_rx (s : State) (n : Nat) (f : PartFrame) : (s.sendFrame n f).lift.rx = s.lift.rx := rfl
@[simp] theorem sendFrame_sent (s : State) (n : Nat) (f : PartFrame) :
    (s.sendFrame n f).lift.sent = s.lift.sent ++ [(n, f)] := rfl
@[simp] theorem setRx_cars (s : State) (n : Nat) (rx : List Byte) : (s.setRx n rx).lift.cars = s.lift.cars := rfl
@[simp] theorem setRx_guards (s : State) (n : Nat) (rx : List Byte) : (s.setRx n rx).lift.guards = s.lift.guards := rfl
@[simp] theorem setRx_latch (s : State) (n : Nat) (rx : List Byte) : (s.setRx n rx).lift.latch = s.lift.latch := rfl
@[simp] theorem setRx_sent (s : State) (n : Nat) (rx : List Byte) : (s.setRx n rx).lift.sent = s.lift.sent := rfl
@[simp] theorem setPoint_points (s : State) (d : Nat) (p : DoorPoint) :
    (s.setPoint d p).door.points = put1 s.door.points d (some p) := rfl
@[simp] theorem setPoint_queue (s : State) (d : Nat) (p : DoorPoint) : (s.setPoint d p).door.queue = s.door.queue := rfl
@[simp] theorem setPoint_expanders (s : State) (d : Nat) (p : DoorPoint) :
    (s.setPoint d p).door.expanders = s.door.expanders := rfl
@[simp] theorem setPoint_pacing (s : State) (d : Nat) (p : DoorPoint) : (s.setPoint d p).door.pacing = s.door.pacing := rfl
@[simp] theorem setExpander_points (s : State) (e : Nat) (x : Expander) : (s.setExpander e x).door.points = s.door.points := rfl
@[simp] theorem setExpander_queue (s : State) (e : Nat) (x : Expander) : (s.setExpander e x).door.queue = s.door.queue := rfl
@[simp] theorem setExpander_pacing (s : State) (e : Nat) (x : Expander) : (s.setExpander e x).door.pacing = s.door.pacing := rfl
@[simp] theorem setEngine_engine (s : State) (e : Engine) : (s.setEngine e).store.engine = e := rfl
@[simp] theorem setEngine_reads (s : State) (e : Engine) : (s.setEngine e).store.reads = s.store.reads := rfl
@[simp] theorem setEngine_blocks (s : State) (e : Engine) : (s.setEngine e).store.blocks = s.store.blocks := rfl
@[simp] theorem setEngine_bytes (s : State) (e : Engine) : (s.setEngine e).store.bytes = s.store.bytes := rfl
@[simp] theorem setEngine_directory (s : State) (e : Engine) : (s.setEngine e).store.directory = s.store.directory := rfl
@[simp] theorem clearPermit_permit (s : State) : s.clearPermit.store.permit = false := rfl
@[simp] theorem clearPermit_engine (s : State) : s.clearPermit.store.engine = s.store.engine := rfl
@[simp] theorem beginArrival_buffer (s : State) : s.beginArrival.line.buffer = s.line.buffer := rfl
@[simp] theorem beginArrival_reply (s : State) : s.beginArrival.line.reply = s.line.reply := rfl
@[simp] theorem beginArrival_cars (s : State) : s.beginArrival.lift.cars = s.lift.cars := rfl
@[simp] theorem beginArrival_guards (s : State) : s.beginArrival.lift.guards = s.lift.guards := rfl
@[simp] theorem beginArrival_latch (s : State) : s.beginArrival.lift.latch = s.lift.latch := rfl
@[simp] theorem beginArrival_sent (s : State) : s.beginArrival.lift.sent = [] := rfl
@[simp] theorem beginArrival_now (s : State) : s.beginArrival.now = s.now := rfl

/-! ### Records after an update -/

/-- A channel's record after it is replaced. -/
theorem chan_setChan_same {s : State} {n : Nat} {b : Chan} (h : s.chan n = some b) (c : Chan) :
    (s.setChan n c).chan n = some c := at1_put1_same h

/-- The other channels' records. -/
theorem chan_setChan_ne {s : State} {n m : Nat} (h : m ≠ n) (c : Chan) : (s.setChan n c).chan m = s.chan m := at1_put1_ne h

/-- A zone's record after it is replaced. -/
theorem zone_setZone_same {s : State} {z : Nat} {b : Zone} (h : s.zone z = some b) (r : Zone) :
    (s.setZone z r).zone z = some r := rec1_put1_same h

/-- The other zones' records. -/
theorem zone_setZone_ne {s : State} {z y : Nat} (h : y ≠ z) (r : Zone) : (s.setZone z r).zone y = s.zone y := rec1_put1_ne h

/-- A car's record after it is replaced. -/
theorem car_setCar_same {s : State} {n : Nat} {b : Car} (h : s.car n = some b) (c : Car) : (s.setCar n c).car n = some c :=
  rec1_put1_same h

/-- The other cars' records. -/
theorem car_setCar_ne {s : State} {n m : Nat} (h : m ≠ n) (c : Car) : (s.setCar n c).car m = s.car m := rec1_put1_ne h

/-- A door point's record after it is replaced. -/
theorem point_setPoint_same {s : State} {d : Nat} {b : DoorPoint} (h : s.point d = some b) (p : DoorPoint) :
    (s.setPoint d p).point d = some p := rec1_put1_same h

/-- The other door points' records. -/
theorem point_setPoint_ne {s : State} {d e : Nat} (h : e ≠ d) (p : DoorPoint) : (s.setPoint d p).point e = s.point e :=
  rec1_put1_ne h

/-- A programme's record after it is replaced. -/
@[simp] theorem prog_setProg_same (s : State) (p : Prog) (r : ProgRec) : (s.setProg p r).prog p = r := by cases p <;> rfl

/-- The other programmes' records. -/
theorem prog_setProg_ne {s : State} {p q : Prog} (h : q ≠ p) (r : ProgRec) : (s.setProg p r).prog q = s.prog q := by
  cases p <;> cases q <;> first | rfl | exact absurd rfl h

/-- An open incident's record after it is replaced. -/
theorem incident_setIncident_same {s : State} {i b : Incident} (h : s.incident i.id = some b) :
    (s.setIncident i).incident i.id = some i := by
  unfold State.incident at h ⊢
  simp only [State.setIncident]
  revert h
  induction s.fire.incidents with
  | nil => simp
  | cons x xs ih =>
    intro h
    by_cases e : x.id = i.id
    · simp [e]
    · simp only [List.map_cons, List.find?_cons, e, if_false] at h ⊢
      have : (x.id == i.id) = false := by simp [e]
      simp only [this] at h ⊢
      exact ih h

/-- The other incidents' records. -/
theorem incident_setIncident_ne {s : State} {i : Incident} {id : Nat} (h : id ≠ i.id) :
    (s.setIncident i).incident id = s.incident id := by
  unfold State.incident
  simp only [State.setIncident]
  induction s.fire.incidents with
  | nil => rfl
  | cons x xs ih =>
    by_cases e : x.id = i.id
    · have h1 : (i.id == id) = false := by simp; omega
      have h2 : (x.id == id) = false := by simp; omega
      simp [e, h1, ih]
    · simp only [List.map_cons, List.find?_cons, e, if_false, ih]

end Sys2Proof.Machine
end

