-- ==== Sys2Proof/Tests/Slice0.lean ====
section
/-! SUPPORT. The model's own tests: ill-formed terms that the check refuses; for every statement of Obligations.lean a state and operands that
meet its hypotheses, clause by clause, at boundary values; and some steps worked by hand from the spec. -/

namespace Sys2Proof.Tests

open Sys2Proof Sys2Proof.Machine

set_option Elab.async false

/-! ### A small building -/

/-- The words of a line. -/
def w (t : String) : List Text := if t = "" then [] else splitAt ' ' t.toList

/-- Bytes of numbers. -/
def bytes (ns : List Nat) : List Byte := ns.map (BitVec.ofNat 8)

/-- Floors 0 to 2 and 63, with a landing of group 1 each and the ground floor one of group 2; floors 0 to 2 have an audio zone. -/
def towerFloor (n : Nat) : Option Floor :=
  if n < 3 ∨ n = 63 then
    some ⟨#v[some n, if n = 0 then some 0 else none], if n < 3 then some (n + 1) else none, #v[none, none, none]⟩
  else none

/-- Zones 1 and 2 on floors 1 and 2 (groups 1 and 2, confirm 8 s), zone 63 without a confirm time, zone 64. -/
def towerZone (z : Nat) : Option ZoneEntry :=
  if z = 1 ∨ z = 2 then some { fallbackZone with floors := [z], group := z, confirmSeconds := 8 }
  else if z = 63 then some { fallbackZone with floors := [0], group := 3, confirmSeconds := 0, recallAlert := [] }
  else if z = 64 then some { fallbackZone with floors := [63], group := 16, confirmSeconds := 30, stairsAlert := [] }
  else none

/-- Channels 1, 2, 23 and 24 feed zones 1, 2, 63 and 64; the others are unused. -/
def towerChan (n : Nat) : ChanEntry :=
  ⟨if n = 1 ∨ n = 2 then some n else if 23 ≤ n then some (n + 40) else none, some (900, 1100), some (1800, 2200), 10⟩

/-- Points 9 to 16 are absent, so expander 2 is not configured; 1 to 8 guard stair A, 96 stair C with a floor, the others stair A; stair B has
none. -/
def towerDoor (d : Nat) : Option DoorEntry :=
  if 9 ≤ d ∧ d ≤ 16 then none
  else if d = 96 then some ⟨.c, some 63, true, 30⟩ else some ⟨.a, none, d == 1, 120⟩

/-- The regime of the tests. -/
def tower : Regime :=
  { fallbackRegime with
    number := 412
    floors := ⟨((List.range 64).map towerFloor).toArray, by simp⟩
    zones := ⟨((span 1 64).map towerZone).toArray, rfl⟩
    channels := ⟨((span 1 24).map towerChan).toArray, rfl⟩
    cars := #v[some 1, some 1, some 1, some 1, none, some 2]
    groups := #v[some ⟨0, some 1⟩, some ⟨0, none⟩]
    doors := ⟨((span 1 96).map towerDoor).toArray, rfl⟩
    azones := ⟨(List.replicate 4 true ++ List.replicate 43 false ++ [true]).toArray, rfl⟩
    tones := Vector.replicate 8 ⟨1000, 0, 500, 500⟩
    evac := ⟨[.tone 2 1000, .clip 5, .gap 500], 0⟩
    alert := ⟨[.clip 5, .clip 6], 2⟩
    options := ⟨2, true, 2000, 1500⟩ }

/-- The part in service on that regime, at uptime 0, its event queue empty. -/
def site : State :=
  let s := State.reset.coldUnits .ok tower false
  { s with control := { s.control with mode := .normal, settle := none } }

/-- A state at another uptime. -/
def at_ (t : Nat) (s : State) : State := { s with control := { s.control with uptime := t } }

/-- A state in another mode. -/
def mode (m : Mode) (s : State) : State := { s with control := { s.control with mode := m } }

/-- The part in MAINTENANCE. -/
def maint : State := mode .maintenance site

/-- The state after a command. -/
def after (c : Instr) (s : State) : State :=
  match exec c s with
  | .next t => t
  | _ => State.reset

/-- An incident with one member zone. -/
def fire (id z : Nat) (st : IncidentState) (sev : Severity) : Incident :=
  { id := id, origin := .zone z, state := st, severity := sev, members := [⟨z, 0, false⟩], openedAt := 0, acceptedAt := none
    escalation := if st = .unaccepted ∧ sev = .alert then some 120000 else none }

/-- Open incidents, with store freeze and tenant stop; the rest of the demand is left empty. -/
def burning (is : List Incident) (s : State) : State :=
  { s with fire := { s.fire with incidents := is, demand := { Demand.empty with freeze := true, tenantStop := true } } }

/-- A command that is answered with a next state. -/
def completes (c : Instr) (s : State) : Bool :=
  match exec c s with
  | .next _ => true
  | _ => false

theorem exec_after {c : Instr} {s : State} (h : completes c s = true) : exec c s = .next (after c s) := by
  unfold completes at h
  unfold after
  split at h
  · next t e => rw [e]
  · exact absurd h (by decide)

/-- A state whose reply has been sent. -/
def quiet (s : State) : State := { s with line := { s.line with reply := none, buffer := [] } }

/-- The text of the reply in progress. -/
def replyText (s : State) : String :=
  match s.line.reply with
  | none => ""
  | some r => String.ofList (lineBody r.line)

/-! ### Ill-formed terms, one for each check -/

theorem test_wellFormed_refuses :
    (fieldsWellFormed ["A B".toList] = false ∧ fieldsWellFormed ["A~".toList] = false ∧
      fieldsWellFormed [[Char.ofNat 0x7F]] = false) ∧
    (inRange 1 24 0 = false ∧ inRange 1 24 25 = false) ∧
    CarReport.wellFormed ⟨some 64, .stopped, .closed, true, .off⟩ = false ∧
    (∀ c ∈ [Instr.lineComplete [], .lineClassChange 25 0, .risingEdge 0, .spotDeadline 25 [1], .confirmDeadline 65, .escalationDeadline 256,
      .carReport 7 ⟨none, .stopped, .closed, true, .off⟩, .carReport 1 ⟨some 64, .stopped, .closed, true, .off⟩, .orderTaken 1 64,
      .callAsk 0 1, .orderRefused 1 1 16, .orderRefused 1 1 0, .invalidFrame 7 [], .linkDeadline 0, .scanMiss 13 true, .heldOpenDeadline 97,
      .stepDeadline .live, .clipReadEnd .live, .blockArrival [], .blockArrival (List.replicate 81 0), .accept [[' ']], .lockDoor ["~".toList]],
      c.wellFormed = false) ∧
    (∀ f : AdapterFrame, f = .taken 64 ∨ f = .refused 1 16 → f.wellFormed = false) := by
  refine ⟨by decide +kernel, by decide, by decide, by decide +kernel, ?_⟩
  rintro f (rfl | rfl) <;> decide

theorem test_wellFormed_accepts_bounds :
    ∀ c ∈ [Instr.lineClassChange 1 0, .risingEdge 24, .confirmDeadline 64, .escalationDeadline 255,
      .carReport 6 ⟨some 63, .up, .opening, false, .override⟩, .orderRefused 1 63 15, .scanMiss 12 false, .heldOpenDeadline 96,
      .stepDeadline .tenant, .blockArrival (List.replicate 80 0), .manual (w "EVAC"), .coldStart], c.wellFormed = true := by
  decide +kernel

theorem test_no_word_spells_a_command : decodeTableWord 16 0 = none ∧ decodeTableWord 0 65535 = none := by decide

/-! ### The queue, the clock, cold start -/

theorem test_StepRunsTheFrontCommand :
    let s : State := { site with pending := [.hello [], .check] }
    s.pending = .hello [] :: [.check] ∧ step s = exec (.hello []) { s with pending := [.check] } :=
  ⟨rfl, rfl⟩

theorem test_EmptyQueueTakesDueExpiryOrOneMillisecond :
    site.pending = [] ∧ site.firstDue = some .pacingDeadline ∧
    (at_ 4294967295000 { site with door := { site.door with pacing := 4294967295500 }
                                   lift := { site.lift with cars := Vector.replicate 6 none } }).firstDue = none ∧
    (after .pacingDeadline site).door.pacing = 500 := by
  decide +kernel

/-- A header of an image of length `n` with a CRC. -/
def header (n : Nat) (crc : List Nat) : List Byte := bytes ([0, 1, 1, 156, 0, 0, n / 256, n % 256] ++ crc ++ [0, 9, 0, 0])

/-- A section list entry. -/
def section_ (id count size off : Nat) : List Byte :=
  bytes [id, count, 0, size, off / 256, off % 256, count * size / 256, count * size % 256]

/-- The smallest image: one floor, one zone on it, channel 1, car 1, one door point (Tables 1-1 to 1-8). -/
def image (crc : List Nat) : List Byte :=
  header 583 crc ++ section_ 1 1 7 88 ++ section_ 2 1 17 95 ++ section_ 3 24 11 112 ++ section_ 4 8 2 376 ++ section_ 5 1 5 392 ++
  section_ 6 48 1 397 ++ section_ 7 8 8 445 ++ section_ 8 2 34 509 ++ section_ 9 1 6 577 ++
  bytes [1, 0, 255, 1, 1, 255, 255] ++
  bytes [1, 1, 0, 255, 255, 255, 1, 2, 0, 120, 1, 1, 7, 7, 0, 0, 1] ++
  bytes [1, 1, 3, 132, 4, 76, 7, 8, 8, 152, 10] ++ bytes (List.replicate 253 0) ++
  bytes [1, 1, 0, 0, 0, 0, 0, 0, 0, 0, 0, 0, 0, 255, 0, 0] ++
  bytes [1, 0, 1, 0, 120] ++
  bytes (1 :: List.replicate 47 0) ++
  bytes (List.replicate 8 [3, 232, 0, 0, 1, 244, 1, 244]).flatten ++
  bytes ([1, 0, 1, 1, 3, 232] ++ List.replicate 28 0) ++ bytes ([1, 3, 1, 2, 3, 232] ++ List.replicate 28 0) ++
  bytes [2, 1, 7, 208, 5, 220]

/-- A state whose regime area holds these bytes. -/
def stored (bs : List Byte) (s : State) : State := { s with regime := { s.regime with area := Mem.ofBytes erasedByte 0 bs } }

/-- The smallest image with its CRC. -/
def good : List Byte := image [21, 192, 102, 19]

/-- An image of 88 bytes with a format number and a CRC, the rest zero. -/
def short (format : Nat) (crc : List Nat) : List Byte := bytes ([0, format, 1, 156, 0, 0, 0, 88] ++ crc ++ List.replicate 76 0)

/-- An image that fails the header check: its format is 2. -/
def badHeader : List Byte := short 2 [40, 64, 129, 47]

/-- 64 bytes of a CRC at a time, which keeps the kernel's evaluation shallow. -/
theorem crcStep (c d : Crc32) (l : List Byte) (h : (l.take 64).foldl crc32Byte c = d) :
    l.foldl crc32Byte c = (l.drop 64).foldl crc32Byte d := by
  rw [← h, ← List.foldl_append, List.take_append_drop]

theorem test_image_crc : imageCrc good = crcField good := by
  unfold imageCrc crc32
  rw [crcStep _ 0x15BD67B7 _ (by decide +kernel),
    crcStep _ 0x9E6C3447 _ (by decide +kernel),
    crcStep _ 0x131C7BA8 _ (by decide +kernel),
    crcStep _ 0xCCD35B57 _ (by decide +kernel),
    crcStep _ 0x17A8C172 _ (by decide +kernel),
    crcStep _ 0x3375A547 _ (by decide +kernel),
    crcStep _ 0xE439C115 _ (by decide +kernel),
    crcStep _ 0x6879F431 _ (by decide +kernel),
    crcStep _ 0x4DFFA9B7 _ (by decide +kernel),
    crcStep _ 0xEA3F99EC _ (by decide +kernel)]
  decide +kernel

theorem test_image_is_good : areaImage (Mem.ofBytes erasedByte 0 good) = some good := by
  have l : wordAt ((Mem.ofBytes erasedByte 0 good).slice erasedByte 0 16) 4 = 583 := by decide +kernel
  have b : (Mem.ofBytes erasedByte 0 good).slice erasedByte 0 583 = good := by decide +kernel
  unfold areaImage
  rw [l]
  dsimp only
  rw [b, test_image_crc]
  rfl

theorem test_image_spells_the_regime :
    (match checkImage good with
      | .ok r => decide (r.number = 412 ∧ r.format = 1 ∧ r.zone 1 ≠ none ∧ r.zone 2 = none ∧
          r.channel 1 = ⟨some 1, some (900, 1100), some (1800, 2200), 10⟩ ∧ r.door 2 = none ∧ r.azonePresent 2 = false ∧
          r.alert = ⟨[.tone 2 1000], 3⟩ ∧ r.options = ⟨2, true, 2000, 1500⟩)
      | .error _ => false) = true := by
  decide +kernel

theorem test_badHeader_is_read : areaImage (Mem.ofBytes erasedByte 0 badHeader) = some badHeader := by
  have l : wordAt ((Mem.ofBytes erasedByte 0 badHeader).slice erasedByte 0 16) 4 = 88 := by decide +kernel
  have b : (Mem.ofBytes erasedByte 0 badHeader).slice erasedByte 0 88 = badHeader := by decide +kernel
  have c : imageCrc badHeader = crcField badHeader := by
    unfold imageCrc crc32
    rw [crcStep _ 0xD8894531 _ (by decide +kernel)]
    decide +kernel
  unfold areaImage
  rw [l]
  dsimp only
  rw [b, c]
  rfl

theorem test_ColdStartLoadsRegimeOrFallback :
    (State.reset.regime.torn = false ∧ (State.reset.regime.area.slice erasedByte 0 16).all (fun b => b == 0xFF) = true) ∧
    (areaImage (stored (bytes [0]) site).regime.area = none ∧
      ((stored (bytes [0]) site).regime.area.slice erasedByte 0 16).all (fun b => b == 0xFF) = false) ∧
    (match checkImage badHeader with
      | .ok _ => none
      | .error e => some e) = some (.header, 0) ∧
    (after .coldStart (stored (bytes [0]) site)).regime.coldResult = .crc := by
  decide +kernel

/-! ### The line interface -/

/-- A line's characters, its check and its end. -/
def wire (t : String) (check : List Nat) : List RxChar :=
  (t.toList.map fun c => RxChar.char (BitVec.ofNat 8 c.toNat)) ++ (126 :: check ++ [13, 10]).map fun n => RxChar.char (BitVec.ofNat 8 n)

/-- A state with a line at the head of the buffer. -/
def head (l : BufLine) (s : State) : State := { s with line := { s.line with buffer := [l] } }

/-- A state with a reply in progress. -/
def replying (s : State) : State := { s with line := { s.line with reply := some ⟨[], []⟩ } }

theorem test_RequestsInTurnGetOneReply :
    requestOf (.hello []) = some ("HELLO", []) ∧ (replying site).turn "HELLO" [] = false ∧ site.turn "HELLO" [] = true ∧
    requestOf (.restart []) = some ("RESTART", []) ∧ site.turn "RESTART" [] = true ∧
    (head (requestLine "CLIPS" []) site).turn "HELLO" [] = false ∧ (head (requestLine "HELLO" []) site).turn "HELLO" [] = true ∧
    replyText (after (.hello []) site) = "OK HELLO HASJOR HJ-640 1 412 N NORMAL OK" ∧
    replyText (after (.hello []) { site with line := { site.line with overrun := true } }) =
      "OK HELLO OVERRUN HASJOR HJ-640 1 412 N NORMAL OK" ∧
    replyText (after (.hello (w "9")) site) = "NO HELLO FIELD 1" := by
  decide +kernel

theorem test_LinesEnterTheBuffer :
    site.line.rx = [] ∧ site.line.rxMore = false ∧ (List.replicate 295 'A').all bodyChar = true ∧
    (List.replicate 295 'A').length = 295 ∧ site.line.buffer.length = 0 ∧
    (after (.lineComplete (wire "HELLO" [55, 52, 70, 56])) site).line.buffer = [.formed "HELLO".toList 0x74F8] ∧
    (after (.lineComplete [.lineBreak, .char 0x0D, .char 0x0A]) site).line.buffer = [.damaged] ∧
    (after (.lineComplete [.char 0x0A]) { site with line := { site.line with buffer := [.damaged, .damaged] } }).line.overrun = false ∧
    (after (.lineComplete [.framingError, .char 0x0A]) { site with line := { site.line with buffer := [.damaged, .damaged] } }).line.overrun
      = true := by
  decide +kernel

theorem test_BadLinesAreAnswered :
    let evs : State := { site with line := { site.line with overrun := true, reply := some ⟨[[fWord "EV"]], [fWord "OK", fWord "EVENTS", fNum 1]⟩ } }
    (replying site).line.reply = some ⟨[], []⟩ ∧ (⟨[], []⟩ : Reply).events = [] ∧ (⟨[[fWord "EV"]], []⟩ : Reply).events ≠ [] ∧
    (after .replyComplete (after (.hello []) site)).line.buffer = [] ∧ (after .replyComplete evs).line.overrun = false ∧
    (after .replyComplete evs).line.sent = [[fWord "EV"], [fWord "OK", fWord "EVENTS", fWord "OVERRUN", fNum 1]] ∧
    site.line.reply = none ∧ BufLine.damaged.checkFails = true ∧ (BufLine.formed "HELLO".toList 0).checkFails = true ∧
    classify "HALLO 1".toList = none ∧
    replyText (after .check (head .damaged site)) = "NO ? CHECK" ∧
    replyText (after .unknown (head (.formed "ABCDEFGHIJKLMNOPQRS 1".toList (crc16 "ABCDEFGHIJKLMNOPQRS 1".toList)) site)) =
      "NO ABCDEFGHIJKLMNOP UNKNOWN" := by
  decide +kernel

theorem test_line_check_value : crc16 "123456789".toList = 0x29B1 ∧ crc32 (bytes [49, 50, 51, 52, 53, 54, 55, 56, 57]) = 0xCBF43926 := by
  decide +kernel

/-! ### The queries -/

theorem test_RegimeAndChanQueriesReport :
    site.takes (.regimeQuery []) = true ∧ site.takes (.regimeQuery (w "1")) = true ∧ w "1" ≠ [] ∧
    (∀ t ∈ ["1", "24", "0", "25"], site.takes (.chanQuery (w t)) = true) ∧
    fields1 (number 1 24) (w "1") = .ok 1 ∧ fields1 (number 1 24) (w "24") = .ok 24 ∧ (site.chan 24).isSome = true ∧
    fields1 (number 1 24) (w "0") = .error 1 ∧ fields1 (number 1 24) (w "25") = .error 1 ∧ fields1 (number 1 24) (w "1 2") = .error 2 ∧
    replyText (after (.regimeQuery []) site) = "OK REGIME 412 1 N OK IDLE - -" ∧
    replyText (after (.chanQuery (w "1")) site) = "OK CHAN 1 Y 1 UNSETTLED - UNDRIVEN - - - UNLOCKED - - - NONE N - - -" := by
  decide +kernel

theorem test_FireQueriesReport :
    (∀ t ∈ ["64", "65", "3"], site.takes (.zoneQuery (w t)) = true) ∧ fields1 (number 1 64) (w "65") = .error 1 ∧
    fields1 (number 1 64) (w "3") = .ok 3 ∧ site.zone 3 = none ∧ fields1 (number 1 64) (w "64") = .ok 64 ∧ site.zone 64 = some Zone.cold ∧
    (site.regime.active.zone 64).isSome = true ∧
    site.takes (.incidents []) = true ∧ site.takes (.incidents (w "1")) = true ∧
    (∀ t ∈ ["255 64", "256", "1"], site.takes (.incidentQuery (w t)) = true) ∧ incidentFields (w "255 64") = .ok (255, 64) ∧
    incidentFields (w "256") = .error 1 ∧ incidentFields (w "1 65") = .error 2 ∧ incidentFields (w "1") = .ok (1, 1) ∧
    site.incident 1 = none ∧ ((burning [fire 255 1 .unaccepted .alert] site).incident 255).isSome = true ∧
    replyText (after (.zoneQuery (w "2")) site) = "OK ZONE 2 NORMAL NONE N - - - 0.000 2 2" ∧
    replyText (after (.incidents []) (burning [fire 255 1 .unaccepted .alert] site)) =
      "OK INCIDENTS 1 255/1/UNACCEPTED/ALERT/1 - NONE NONE NONE" ∧
    replyText (after (.incidentQuery (w "255")) (burning [fire 255 1 .unaccepted .alert] site)) =
      "OK INCIDENT 255 1 UNACCEPTED ALERT 0.000 - 120.000 1 1 1/0.000/-" := by
  decide +kernel

theorem test_LiftQueriesReport :
    (∀ t ∈ ["0", "63", "64", "5"], site.takes (.guardQuery (w t)) = true) ∧ fields1 (number 0 63) (w "64") = .error 1 ∧
    fields1 (number 0 63) (w "5") = .ok 5 ∧ site.regime.active.floor 5 = none ∧ fields1 (number 0 63) (w "63") = .ok 63 ∧
    (site.regime.active.floor 63).isSome = true ∧
    (∀ t ∈ ["1", "5", "6", "7"], site.takes (.carQuery (w t)) = true) ∧ fields1 (number 1 6) (w "7") = .error 1 ∧
    fields1 (number 1 6) (w "5") = .ok 5 ∧ site.car 5 = none ∧ fields1 (number 1 6) (w "6") = .ok 6 ∧ site.car 6 = some (Car.fresh 0) ∧
    replyText (after (.guardQuery (w "0")) site) = "OK GUARD 0 N N N 0 0" ∧
    replyText (after (.carQuery (w "6")) site) = "OK CAR 6 2 LOST TENANT - - - - - - - - - - N - - - -" := by
  decide +kernel

theorem test_DoorQueriesReport :
    (∀ t ∈ ["1", "9", "96", "97"], site.takes (.doorQuery (w t)) = true) ∧ fields1 (number 1 96) (w "97") = .error 1 ∧
    fields1 (number 1 96) (w "9") = .ok 9 ∧ site.point 9 = none ∧ fields1 (number 1 96) (w "96") = .ok 96 ∧
    site.point 96 = some DoorPoint.cold ∧ (site.regime.active.door 96).isSome = true ∧
    at1 site.door.expanders (expanderOf 96) = some Expander.cold ∧
    site.takes (.stairQuery (w "C")) = true ∧ site.takes (.stairQuery (w "D")) = true ∧ fields1 stairWord (w "C") = .ok .c ∧
    fields1 stairWord (w "D") = .error 1 ∧
    replyText (after (.doorQuery (w "96")) site) = "OK DOOR 96 C 63 Y 12 UP RELEASED RELEASE - - N N - - N" ∧
    replyText (after (.stairQuery (w "C")) site) = "OK STAIR C NONE 1 0 0/0/1/0/0/0/0/0/0 0" := by
  decide +kernel

/-- A tenant announcement of one tone. -/
def notice (t : Nat) : Announcement := ⟨t, [1, 48], ⟨[.tone 1 100], 1⟩, 0, none⟩

/-- A part that plays announcement 7 with 255 pending. -/
def talking : State :=
  { site with ann := { site.ann with playing := some { notice 7 with startedAt := some 0 }, queue := [notice 255] } }

theorem test_AudioQueriesReport :
    (∀ t ∈ ["48", "5", "49"], site.takes (.azoneQuery (w t)) = true) ∧ fields1 (number 1 48) (w "49") = .error 1 ∧
    fields1 (number 1 48) (w "48") = .ok 48 ∧ site.regime.active.azonePresent 48 = true ∧ fields1 (number 1 48) (w "5") = .ok 5 ∧
    site.regime.active.azonePresent 5 = false ∧ at1 site.ann.zones 48 = some AudioZone.cold ∧ at1 site.ann.zones 5 = some AudioZone.cold ∧
    site.takes (.progQuery (w "EVAC")) = true ∧ site.takes (.progQuery (w "X")) = true ∧ fields1 progWord (w "X") = .error 1 ∧
    fields1 progWord (w "EVAC") = .ok .evac ∧
    (∀ t ∈ ["", "255", "256", "8"], site.takes (.tenantQuery (w t)) = true ∧ talking.takes (.tenantQuery (w t)) = true) ∧
    fieldsOpt (number 1 255) (w "256") = .error 1 ∧ fieldsOpt (number 1 255) (w "") = .ok none ∧
    fieldsOpt (number 1 255) (w "255") = .ok (some 255) ∧ talking.ann.find 8 = none ∧ talking.ann.find 255 = some (notice 255, 1) ∧
    site.takes (.liveQuery []) = true ∧ site.takes (.liveQuery (w "1")) = true ∧
    replyText (after (.azoneQuery (w "48")) site) = "OK AZONE 48 Y REST NONE - - - - N 0.000" ∧
    replyText (after (.progQuery (w "EVAC")) site) = "OK PROG EVAC IDLE 0 - - - - - - - - -" ∧
    replyText (after (.tenantQuery (w "255")) talking) = "OK TENANT 255 1 1,48 1 1 TONE/1/100 0.000 -" ∧
    replyText (after (.liveQuery []) site) = "OK LIVE OFF - 0 0 - 0 - ON" := by
  decide +kernel

theorem test_StoreQueriesReport :
    (∀ t ∈ ["", "1", "2", "3"], site.takes (.storeQuery (w t)) = true) ∧ fieldsOpt (number 1 2) (w "3") = .error 1 ∧
    fieldsOpt (number 1 2) (w "") = .ok none ∧ fieldsOpt (number 1 2) (w "2") = .ok (some 2) ∧
    (∀ t ∈ ["", "127", "128"], site.takes (.clips (w t)) = true) ∧ fieldsOpt (number 1 127) (w "128") = .error 1 ∧
    fieldsOpt (number 1 127) (w "127") = .ok (some 127) ∧
    replyText (after (.storeQuery []) site) = "OK STORE READY - - - - - N - 0 0 0" ∧
    replyText (after (.clips []) { site with store := { site.store with directory := [⟨5, 1, 2, 131057, 0xAB⟩] } }) =
      "OK CLIPS 1 5/1/2/2/131057/000000AB" := by
  decide +kernel

theorem test_StatusQueriesReport :
    (∀ t ∈ ["", "192", "193"], site.takes (.troubles (w t)) = true) ∧ fieldsOpt (number 1 192) (w "193") = .error 1 ∧
    fieldsOpt (number 1 192) (w "192") = .ok (some 192) ∧
    (∀ t ∈ ["", "1"], site.takes (.hello (w t)) = true ∧ site.takes (.modeQuery (w t)) = true) ∧
    replyText (after (.troubles []) State.reset) = "OK TROUBLES 1 REGIME/REGIME-FALLBACK/2/0.000/1/BLANK" ∧
    replyText (after (.modeQuery []) State.reset) = "OK MODE STARTING Y 0.000 N 24 0 1 N 1" := by
  decide +kernel

/-! ### Events, troubles, modes -/

/-- `n` events of a class. -/
def evs (n : Nat) (c : EventClass) : List Event := List.replicate n ⟨c, .modeChanged, 0, .control, []⟩

/-- A state with an event queue. -/
def queued (q : List Event) (s : State) : State := { s with event := { s.event with queue := q } }

theorem test_EventQueueOrderAndDisplacement :
    let e : Event := ⟨.trouble, .doorForced, 1, .door 1, []⟩
    let full : EventUnit := ⟨evs 1 .fire ++ evs 62 .trouble ++ evs 1 .status, false, []⟩
    classSorted (evs 31 .fire ++ evs 32 .status) = true ∧ (evs 31 .fire ++ evs 32 .status).length = 63 ∧
    classSorted (evs 64 .trouble) = true ∧ (evs 64 .trouble).length = 64 ∧ (∀ x ∈ evs 64 .trouble, x.cls.num ≤ e.cls.num) ∧
    classSorted full.queue = true ∧ full.queue.length = 64 ∧ e.cls.num < EventClass.status.num ∧ (∃ x ∈ full.queue, x.cls = .status) ∧
    (∀ x ∈ full.queue, x.cls.num ≤ EventClass.status.num) ∧
    (full.take e).queue = evs 1 .fire ++ evs 62 .trouble ++ [e] ∧ (full.take e).gap = true := by
  decide +kernel

/-- The check of a line's text as four digits, and its end. -/
def hexCheck (t : String) : Text := digitsText 16 4 (crc16 t.toList).toNat ++ [Char.ofNat 13, Char.ofNat 10]

theorem test_EventsDeliverAndAttnFollows :
    (queued (evs 64 .status) site).event.queue.length = 64 ∧ (queued (evs 8 .status) site).event.queue.length ≤ 8 ∧
    (∀ t ∈ ["1", "8", "0", "9"], site.takes (.events (w t)) = true) ∧ fields1 (number 1 8) (w "0") = .error 1 ∧
    fields1 (number 1 8) (w "9") = .error 1 ∧ fields1 (number 1 8) (w "8") = .ok 8 ∧
    (after .replyComplete (after (.events (w "1")) State.reset)).transmitted.map (fun t => String.ofList (t.take 51)) =
      ["EV 2 TROUBLE-ON 0.000 REGIME - REGIME-FALLBACK BLAN", "OK EVENTS 1~" ++ String.ofList (hexCheck "OK EVENTS 1")] ∧
    (after (.events (w "1")) State.reset).attn = false := by
  decide +kernel

theorem test_TroubleEntryAndResolution :
    State.reset.event.stands .live .liveKilled = false ∧ State.reset.event.stands .regime .regimeFallback = true ∧
    ((State.reset.event.standing .regime).find? (fun x => x.kind == .regimeFallback)).isSome = true ∧
    ((State.reset.resolveTrouble .regime .regimeFallback).event.troubles = []) := by
  decide +kernel

theorem test_MaintenanceRequests :
    let lit := burning [fire 1 1 .unaccepted .alert] site
    w "" = [] ∧ site.takes (.maintOn []) = true ∧ site.takes (.maintOff []) = true ∧ maint.takes (.maintOff []) = true ∧
    lit.incidentOpen = true ∧ site.incidentOpen = false ∧ State.reset.control.mode = .starting ∧ maint.control.mode = .maintenance ∧
    site.control.mode = .normal ∧
    replyText (after (.maintOn []) lit) = "NO MAINT INCIDENT" ∧ replyText (after (.maintOn []) State.reset) = "NO MAINT STATE" ∧
    (after (.maintOn []) site).control.mode = .maintenance ∧ (after (.maintOff []) maint).control.mode = .normal := by
  decide +kernel

theorem test_LineRestartKeepsTheBuilding :
    let killed : State := { maint with live := { site.live with state := .killed } }.enterTrouble .live .liveKilled none
    site.ann.live.read = none ∧ (after (.restart []) site).event.queue = [] ∧ killed.takes (.restart []) = true ∧
    (after (.restart []) killed).event.troubles = [] ∧
    (after (.restart []) killed).event.queue.map (fun e => (e.kind, e.source)) =
      [(.troubleOff, .live), (.liveState, .live), (.modeChanged, .control)] ∧
    (after (.restart []) talking).event.queue.map (fun e => (e.kind, e.source)) = [(.tenantDone, .ticket 7), (.tenantDone, .ticket 255)] ∧
    site.takes (.restart []) = true ∧ maint.takes (.restart []) = true ∧ site.live.state = .off ∧
    { site with live := { site.live with state := .killed } }.live.state ≠ .off ∧
    (after (.restart []) talking).ann.playing = none ∧ (after (.restart []) talking).ann.queue = [] ∧
    (after (.restart []) maint).control.mode = .normal ∧ (after (.restart []) site).event.gap = true := by
  decide +kernel

/-- A channel that has a band. -/
def banded : Chan := { Chan.cold with band := some .normal }

theorem test_StartingEndsWhenSettledAndBanded :
    let s := at_ 10000 State.reset
    let t : State := { at_ 10000 State.reset with sense := ⟨Vector.replicate 24 banded, []⟩ }
    s.control.mode = .starting ∧ due s.now s.control.settle = true ∧ s.unsettled = 24 ∧
    let last : State := { t.setChan 1 { Chan.cold with candidate := some (.normal, 9800) } with control := { t.control with settle := none } }
    last.control.settle = none ∧ last.chan 1 = some { Chan.cold with candidate := some (.normal, 9800) } ∧ 9800 + 200 ≤ last.now ∧
    last.regime.active.used 1 = true ∧ last.unsettled = 1 ∧ (after (.bandAdoption 1) last).control.mode = .normal ∧
    (after (.bandAdoption 1) last).event.queue.getLast?.map (fun e => (e.kind, e.fields)) = some (.started, [fNum 0, fFlag true]) ∧
    ((after (.bandAdoption 1) last).point 96).map DoorPoint.state = some .closeWait ∧
    t.unsettled = 0 ∧ (t.point 96).isSome = true ∧ (t.point 96).all (fun p => p.state == .released && !p.hostRelease) = true ∧
    t.covered 96 = false ∧
    (after .startUpSettleDeadline t).control.mode = .normal ∧
    ((after .startUpSettleDeadline t).point 96).map DoorPoint.state = some .closeWait := by
  decide +kernel

/-! ### The regime load -/

/-- A load in RECEIVING of a length. -/
def receiving (n : Nat) (bs : List Byte) (s : State) : State :=
  { s with regime := { s.regime with load := .receiving, stagedLength := some n, staging := Mem.ofBytes stagedByte 0 bs } }

/-- A load in WRITTEN over a regime area. -/
def written (bs : List Byte) (s : State) : State :=
  { stored bs s with regime := { (stored bs s).regime with load := .written, writtenNumber := some 412 } }

theorem test_RegimeGatesAndStaging :
    (∀ t ∈ ["88", "16384", "87", "16385"], site.takes (.regimeBegin (w t)) = true ∧ maint.takes (.regimeBegin (w t)) = true) ∧
    fields1 (number 88 16384) (w "88") = .ok 88 ∧ fields1 (number 88 16384) (w "16384") = .ok 16384 ∧
    site.takes (.regimeData (w "0 00")) = true ∧ dataFields site.regime (w "0 00") = .ok (0, [0]) ∧
    site.takes (.regimeEnd (w "00000000")) = true ∧ fields1 checkValue (w "00000000") = .ok 0 ∧ site.takes (.regimeActivate []) = true ∧
    (burning [fire 1 1 .unaccepted .alert] site).incidentOpen = true ∧ site.control.mode ≠ .maintenance ∧
    maint.incidentOpen = false ∧ maint.regime.load ∉ [LoadState.receiving] ∧ maint.regime.load ∉ [LoadState.written] ∧
    ({ maint with regime := { maint.regime with load := .writing } } : State).regime.load ∉
      [LoadState.idle, .receiving, .written, .writeFailed] ∧
    replyText (after (.regimeData (w "0 00")) maint) = "NO REGIME STATE" := by
  decide +kernel

theorem test_RegimeGatesAndStaging_bytes :
    let r := receiving 88 [] maint
    let last := w ("87 " ++ "ab")
    let busy : State := { r with regime := { r.regime with load := .writing } }
    field 1 decimal (w "87 abcd 0") = .ok 87 ∧ field 2 (hexData 1 128) (w "87 abcd 0") = .ok [0xAB, 0xCD] ∧
    busy.regime.stagedLength = some 88 ∧ busy.takes (.regimeData (w "87 abcd 0")) = true ∧
    dataFields r.regime (w "87 abcd 0") = .error 1 ∧ dataFields r.regime (w "87 ab 0") = .error 3 ∧
    replyText (after (.regimeData (w "87 abcd 0")) busy) = "NO REGIME FIELD 1" ∧ replyText (after (.regimeData last) busy) = "NO REGIME STATE" ∧
    maint.incidentOpen = false ∧ maint.control.mode = .maintenance ∧ maint.regime.load ≠ .writing ∧
    maint.takes (.regimeBegin (w "87")) = true ∧ fields1 (number 88 16384) (w "87") = .error 1 ∧
    fields1 (number 88 16384) (w "16385") = .error 1 ∧ fields1 (number 88 16384) [] = .error 1 ∧
    r.takes (.regimeData last) = true ∧ r.regime.load = .receiving ∧ r.regime.staging.wf stagedByte = true ∧
    fields2 decimal (hexData 1 128) (w "0 abc") = .error 2 ∧ fields2 decimal (hexData 1 128) (w "x ab") = .error 1 ∧
    fields2 decimal (hexData 1 128) last = .ok (87, [0xAB]) ∧ fields2 decimal (hexData 1 128) (w "87 abcd") = .ok (87, [0xAB, 0xCD]) ∧
    r.takes (.regimeData (w "87 abcd")) = true ∧ r.regime.stagedLength.getD 0 < 87 + 2 ∧ 87 + 1 ≤ r.regime.stagedLength.getD 0 ∧
    (after (.regimeData last) r).regime.staging = [(87, 0xAB)] ∧ replyText (after (.regimeData (w "87 abcd")) r) = "NO REGIME FIELD 1" := by
  decide +kernel

/-- The smallest image that passes END: 88 bytes with a good header and CRC. -/
def least88 : List Byte := short 1 [5, 54, 195, 242]

theorem test_RegimeEndDecidesTheWrite :
    let f := w "0536C3F2"
    (receiving 88 least88 maint).takes (.regimeEnd f) = true ∧ fields1 checkValue f = .ok 0x0536C3F2 ∧ maint.incidentOpen = false ∧
    maint.control.mode = .maintenance ∧ (receiving 88 least88 maint).regime.load = .receiving ∧ maint.store.engine = .ready ∧
    (receiving 88 least88 maint).regime.staging.slice stagedByte 0 88 = least88 ∧
    (receiving 88 badHeader maint).regime.staging.slice stagedByte 0 88 = badHeader ∧
    BitVec.ofNat 32 (wordAt least88 8) = (0x0536C3F2 : Crc32) ∧ BitVec.ofNat 32 (wordAt badHeader 8) = (0x2840812F : Crc32) ∧
    (halfAt least88 0 = 1 ∧ wordAt least88 4 = 88) ∧ ¬(halfAt badHeader 0 = 1 ∧ wordAt badHeader 4 = 88) ∧
    fields1 checkValue (w "2840812f") = .ok 0x2840812F ∧
    BitVec.ofNat 32 (wordAt (bytes (List.replicate 88 0)) 8) ≠ (0x0536C3F2 : Crc32) := by
  decide +kernel

theorem test_RegimeEnd_crcs_match :
    crc32 (least88.take 8 ++ [0, 0, 0, 0] ++ least88.drop 12) = 0x0536C3F2 ∧
    crc32 (badHeader.take 8 ++ [0, 0, 0, 0] ++ badHeader.drop 12) = 0x2840812F := by
  unfold crc32
  constructor
  · rw [crcStep _ 0x295CFA55 _ (by decide +kernel)]
    decide +kernel
  · rw [crcStep _ 0xD8894531 _ (by decide +kernel)]
    decide +kernel

theorem test_RegimeWriteEnds :
    let s : State := { at_ 1500 (receiving 88 least88 maint) with
      regime := { (receiving 88 least88 maint).regime with load := .writing, writeStarted := some 0, torn := true }
      store := { maint.store with engine := .writing .regime } }
    s.store.engine = .writing .regime ∧ s.regime.torn = true ∧ s.regime.writeStarted = some 0 ∧ 0 + 1500 ≤ s.now ∧
    (after (.regimeWriteEnd true) s).regime.load = .written ∧ (after (.regimeWriteEnd true) s).regime.writtenNumber = some 412 ∧
    (after (.regimeWriteEnd true) s).regime.area.slice erasedByte 0 90 = least88 ++ [0xFF, 0xFF] ∧
    (after (.regimeWriteEnd false) s).regime.load = .writeFailed ∧ (after (.regimeWriteEnd false) s).regime.torn = true := by
  decide +kernel

theorem test_RegimeActivateTakesTheImage :
    (written good maint).takes (.regimeActivate []) = true ∧ (written good maint).incidentOpen = false ∧
    (written good maint).control.mode = .maintenance ∧ (written good maint).regime.load = .written ∧
    (written good maint).regime.area = Mem.ofBytes erasedByte 0 good ∧
    (written badHeader maint).regime.area = Mem.ofBytes erasedByte 0 badHeader ∧
    areaImage (written [] maint).regime.area = none ∧
    replyText (after (.regimeActivate []) (written [] maint)) = "NO REGIME CRC" := by
  decide +kernel

/-! ### Sense channels -/

/-- A DRIVEN channel without drive now, its meter in cadence use, its last edge at 0. -/
def beating (l : Lock) (run : List Nat) : Chan :=
  { Chan.cold with driven := true, binding := .bound 1 .cadence, lock := l, run := run, lastRise := some 0, signal := .evacUnmetered }

/-- A DRIVEN channel waiting for a meter. -/
def waiting : Chan := { Chan.cold with drive := true, driven := true, binding := .waiting, starve := some 10000, signal := .evacUnmetered }

/-- A channel in a spot measurement with meter 1 until 2000. -/
def spotted : Chan := { Chan.cold with binding := .bound 1 .spot, spotDeadline := some 2000 }

/-- Every meter bound. -/
def starved (s : State) : State :=
  (((s.setChan 20 (beating .unlocked [])).setChan 21 { beating .unlocked [] with binding := .bound 2 .cadence }).setChan 22
    { beating .unlocked [] with binding := .bound 3 .cadence }).setChan 23 { beating .unlocked [] with binding := .bound 4 .cadence }

/-- Channel 2 waits at the head of the meter-wait queue. -/
def lining (s : State) : State := let t := s.setChan 2 waiting; { t with sense := { t.sense with queue := [2] } }

theorem test_LineReadingsAndBandAdoption :
    let c : Chan := { Chan.cold with candidate := some (.shorted, 0) }
    (beating .unlocked []).driven = true ∧ Chan.cold.driven = false ∧
    (∀ n ∈ [1, 3, 24], (site.setChan n c).chan n = some c) ∧ (at_ 199 (site.setChan 1 c)).now < 0 + 200 ∧
    0 + 200 ≤ (at_ 200 (site.setChan 1 c)).now ∧ site.regime.active.used 3 = false ∧ site.regime.active.used 1 = true ∧
    site.regime.active.used 24 = true ∧ (site.regime.active.channel 24).zone = some 64 ∧ (site.zone 64).isSome = true ∧
    (after (.lineClassChange 1 499) site).chan 1 = some { Chan.cold with candidate := some (.shorted, 0) } ∧
    (after (.lineClassChange 1 500) site).chan 1 = some { Chan.cold with candidate := some (.normal, 0) } ∧
    (after (.lineClassChange 1 25000) site).chan 1 = some { Chan.cold with candidate := some (.normal, 0) } ∧
    (after (.lineClassChange 1 25001) site).chan 1 = some { Chan.cold with candidate := some (.opened, 0) } ∧
    ((after (.bandAdoption 1) (at_ 200 (site.setChan 1 c))).zone 1).map Zone.state = some .trouble ∧
    (after (.bandAdoption 1) (at_ 200 (site.setChan 1 c))).event.stands (.chan 1) .channelShort = true := by
  decide +kernel

theorem test_RisingEdgeBeginsADrivenSpell :
    (site.chan 1 = some Chan.cold ∧ Chan.cold.drive = false ∧ Chan.cold.driven = false ∧ Chan.cold.spotting = false ∧
      spotted.drive = false ∧ spotted.driven = false ∧ spotted.binding = .bound 1 .spot) ∧
    site.regime.active.used 3 = false ∧ site.regime.active.used 1 = true ∧ site.sense.freeMeter = some 1 ∧
    (starved site).sense.freeMeter = none ∧ site.sense.queue = [] ∧ (lining site).sense.queue = [2] ∧ (lining site).chan 2 = some waiting ∧
    ((lining site).setChan 3 spotted).chan 3 = some spotted ∧
    ((after (.risingEdge 1) site).chan 1).map Chan.signal = some .evacUnmetered ∧
    (after (.risingEdge 1) (starved site)).sense.queue = [1] ∧
    ((after (.risingEdge 3) ((lining site).setChan 3 spotted)).chan 2).map Chan.meter = some (some 1) ∧
    ((after (.risingEdge 1) site).zone 1).map Zone.state = some .confirming := by
  decide +kernel

theorem test_CadenceMeterMeasuresPeriods :
    let e := site.regime.active.channel 1
    (beating .unlocked []).metered = true ∧ waiting.metered = false ∧ (beating .unlocked []).drive = false ∧
    (beating .unlocked []).driven = true ∧ (beating .steady []).lock = .steady ∧ (beating .unlocked []).lastRise = some 0 ∧
    (beating .unlocked []).run.length ≤ 3 ∧ e.tolerance = 10 ∧
    ((after (.risingEdge 1) (at_ 1000 (site.setChan 1 (beating .unlocked [1000, 1000])))).chan 1).map (fun c => (c.lock, c.signal, c.run)) =
      some (.locked 1000, .alert, []) ∧
    ((after (.risingEdge 1) (at_ 2000 (site.setChan 1 (beating .unlocked [2200, 1800])))).chan 1).map (fun c => (c.lock, c.signal)) =
      some (.locked 2000, .evac) ∧
    ((after (.risingEdge 1) (at_ 1000 (site.setChan 1 (beating .unlocked [800, 1000, 1000])))).chan 1).map (fun c => (c.lock, c.run)) =
      some (.locked 1000, []) ∧
    ((after (.risingEdge 1) (at_ 50 (site.setChan 1 (beating .unlocked [50])))).chan 1).map Chan.run = some [50, 50] ∧
    ((after (.risingEdge 1) (at_ 49 (site.setChan 1 (beating .unlocked [50])))).chan 1).map Chan.run = some [] ∧
    ((after (.risingEdge 1) (at_ 1100 (site.setChan 1 (beating (.locked 1000) [])))).chan 1).map Chan.changed = some false ∧
    ((after (.risingEdge 1) (at_ 1101 (site.setChan 1 (beating (.locked 1000) [])))).chan 1).map (fun c => (c.changed, c.run)) =
      some (true, [1101]) ∧
    (after (.risingEdge 1) (at_ 0 (site.setChan 1 (beating (.locked 1000) [])))).event.queue.map Event.fields =
      [[fNum 1000, fNum 0, fNone]] := by
  decide +kernel

theorem test_FallingEdgeAndHoldExpiry :
    let held (c : Chan) : Chan := { c with holdFrom := some 0 }
    let high : Chan := { beating .unlocked [] with drive := true }
    Chan.cold.drive = false ∧ high.drive = true ∧ waiting.metered = false ∧ high.metered = true ∧ high.lastRise = some 0 ∧
    ({ high with lastRise := none } : Chan).lastRise = none ∧ (held high).driven = true ∧ (held high).holdFrom = some 0 ∧
    site.regime.active.options.holdMs = 1500 ∧ site.regime.active.used 3 = false ∧ site.regime.active.used 1 = true ∧
    (held waiting).binding = .waiting ∧ (held high).binding = .bound 1 .cadence ∧
    ((after (.fallingEdge 1) (at_ 500 (site.setChan 1 high))).chan 1).map (fun c => (c.lastOnTime, c.holdFrom)) = some (some 500, some 500) ∧
    ((after (.fallingEdge 1) (at_ 500 (site.setChan 1 { high with lock := .steady }))).chan 1).map Chan.lock = some .unlocked ∧
    ((after (.holdDeadline 1) (at_ 1499 (site.setChan 1 (held high)))).chan 1).map Chan.driven = some true ∧
    ((after (.holdDeadline 1) (at_ 1500 ((lining site).setChan 1 (held high)))).chan 1).map (fun c => (c.driven, c.signal)) =
      some (false, .none) ∧
    ((after (.holdDeadline 1) (at_ 1500 ((lining site).setChan 1 (held high)))).chan 2).map Chan.meter = some (some 1) ∧
    (after (.holdDeadline 2) (at_ 1500 ((lining site).setChan 2 (held waiting)))).sense.queue = [] := by
  decide +kernel

theorem test_StarveAndSteadyExpiries :
    let c : Chan := { beating (.locked 1000) [] with drive := true, steadyFrom := some 0 }
    waiting.starve = some 10000 ∧ (at_ 9999 site).now < 10000 ∧ 10000 ≤ (at_ 10000 site).now ∧ c.metered = true ∧
    c.steadyFrom = some 0 ∧ site.regime.active.options.steadyMs = 2000 ∧ (at_ 1999 site).now < 0 + 2000 ∧ c.lock = .locked 1000 ∧
    (∀ m, ({ c with lock := .unlocked } : Chan).lock ≠ .locked m) ∧
    (after (.starveDeadline 2) (at_ 10000 (lining site))).event.stands (.chan 2) .meterStarved = true ∧
    ((after (.steadyThreshold 1) (at_ 2000 (site.setChan 1 c))).chan 1).map (fun c => (c.lock, c.signal, c.changed)) =
      some (.steady, .evac, true) ∧
    (after (.steadyThreshold 1) (at_ 2000 (site.setChan 1 c))).event.queue.map Event.kind = [.zoneConfirming, .cadenceChanged] := by
  refine ⟨rfl, by decide +kernel, by decide +kernel, rfl, rfl, by decide +kernel, by decide +kernel, rfl, ?_, by decide +kernel, by decide +kernel,
    by decide +kernel⟩
  intro m h; cases h

theorem test_SpotMeasurementAndChangeFlag :
    (∀ t ∈ ["1", "24", "25"], site.takes (.chanclr (w t)) = true ∧ site.takes (.spot (w t)) = true) ∧
    fields1 (number 1 24) (w "25") = .error 1 ∧ fields1 (number 1 24) (w "24") = .ok 24 ∧ (site.chan 24).isSome = true ∧
    waiting.driven = true ∧ spotted.spotting = true ∧ Chan.cold.driven = false ∧ Chan.cold.spotting = false ∧
    (starved site).sense.freeMeter = none ∧ site.sense.freeMeter = some 1 ∧ spotted.binding = .bound 1 .spot ∧
    spotted.spotDeadline = some 2000 ∧ (at_ 1999 site).now < 2000 ∧ site.sense.queue = [] ∧ (lining site).sense.queue = [2] ∧
    replyText (after (.spot (w "24")) site) = "OK SPOT 24 1" ∧ replyText (after (.spot (w "24")) (starved site)) = "NO SPOT NO-METER" ∧
    ((after (.spotDeadline 1 [65001]) (at_ 2000 (site.setChan 1 spotted))).chan 1).map Chan.spot = some (some ⟨some 65000⟩) ∧
    ((after (.spotDeadline 1 [65535, 64000]) (at_ 2000 (site.setChan 1 spotted))).chan 1).map Chan.spot = some (some ⟨some 64500⟩) ∧
    ((after (.spotDeadline 1 [0]) (at_ 2000 ((lining site).setChan 1 spotted))).chan 2).map Chan.meter = some (some 1) := by
  decide +kernel

/-! ### Zones and incidents -/

/-- A zone in a state at a level. -/
def zoneIn (st : ZoneState) (l : Option Level) (sig : ZoneSignal) (inc : Option Nat) : Zone :=
  { Zone.cold with state := st, level := l, signal := sig, incident := inc, confirm := if st = .confirming then some 8000 else none }

theorem test_ZoneTakesASignalByItsState :
    let alarmed := zoneIn .alarm (some .alert) .alert (some 1)
    let s := (burning [fire 1 1 .silenced .alert] site).setZone 1 alarmed
    (∀ z ∈ [1, 63, 64], (site.zone z).isSome = true ∧ (site.regime.active.zone z).isSome = true) ∧
    Zone.cold.state = .normal ∧ (site.regime.active.zone 64).map ZoneEntry.confirmSeconds = some 30 ∧
    (zoneIn .trouble none .none none).state = .trouble ∧ (zoneIn .confirming (some .alert) .alert none).state = .confirming ∧
    alarmed.state = .alarm ∧ alarmed.level = some .alert ∧ alarmed.incident = some 1 ∧ (s.incident 1).isSome = true ∧
    (ZoneSignal.alert ≠ .evac ∨ alarmed.level ≠ some .alert) ∧
    (ZoneSignal.evac ≠ .evac ∨ (zoneIn .alarm (some .evac) .alert (some 1)).level ≠ some .alert) ∧
    (zoneIn .isolated none .none none).state = .isolated ∧ (fire 1 1 .silenced .alert).severity = .alert ∧
    (fire 1 1 .accepted .evacuate).severity = .evacuate ∧
    ((s.zoneTakesSignal 1 .evac).incident 1).map (fun i => (i.severity, i.state)) = some (.evacuate, .accepted) ∧
    (site.regime.active.zone 63).map ZoneEntry.confirmSeconds = some 0 ∧ Zone.cold.incident = none ∧
    ((site.zoneTakesSignal 63 .alert).zone 63).map (fun r => (r.state, r.incident)) = some (.alarm, some 1) ∧
    ((site.zoneTakesSignal 63 .alert).event.queue.map Event.kind).take 2 = [.zoneAlarm, .incidentOpened] ∧
    ((site.zoneTakesSignal 1 .alert).zone 1).map Zone.confirm = some (some 8000) := by
  decide +kernel

/-- Zone 1 confirming at a level, at uptime 8000. -/
def confirming (l : Level) (s : State) : State := at_ 8000 (s.setZone 1 (zoneIn .confirming (some l) .alert none))

/-- Eight incidents of group 2. -/
def eight : List Incident := (span 1 8).map fun id => fire id 2 .accepted .alert

theorem test_ConfirmExpiryPlacesTheZone :
    let s := confirming .evac site
    (s.zone 1).isSome = true ∧ (zoneIn .confirming (some .alert) .alert none).confirm = some 8000 ∧ (at_ 7999 s).now < 8000 ∧ 8000 ≤ s.now ∧
    (site.regime.active.zone 1).map ZoneEntry.group = some 1 ∧
    ([fire 3 1 .silenced .alert].find? fun x => x.hasGroup tower 1) = some (fire 3 1 .silenced .alert) ∧
    (eight.find? fun x => x.hasGroup tower 1) = none ∧ 8 ≤ eight.length ∧ eight.tail.length < 8 ∧ (eight.tail.find? fun x => x.hasGroup tower 1) = none ∧
    eight.getLast? = some (fire 8 2 .accepted .alert) ∧
    ((after (.confirmDeadline 1) (confirming .evac (burning [fire 3 1 .silenced .alert] site))).incident 3).map
      (fun i => (i.state, i.severity, i.members.length)) = some (.accepted, .evacuate, 2) ∧
    ((after (.confirmDeadline 1) (confirming .alert maint)).fire.incidents.map fun i => (i.id, i.severity, i.escalation)) =
      [(1, .alert, some 128000)] ∧
    (after (.confirmDeadline 1) (confirming .alert maint)).control.mode = .normal ∧
    ((after (.confirmDeadline 1) (confirming .alert (burning eight site))).incident 8).map
      (fun i => i.members.map Member.merged) = some [false, true] ∧
    (after (.confirmDeadline 1) (confirming .alert site)).fire.demand.claims.toList.take 4 = [.none, .alert, .none, .none] := by
  decide +kernel

theorem test_EscalationRaisesTheSeverity :
    let s := burning [fire 255 1 .unaccepted .alert] site
    s.incident 255 = some (fire 255 1 .unaccepted .alert) ∧ (fire 255 1 .unaccepted .alert).escalation = some 120000 ∧
    (at_ 119999 s).now < 120000 ∧ 120000 ≤ (at_ 120000 s).now ∧ (fire 255 1 .unaccepted .alert).origin = .zone 1 ∧
    (site.regime.active.zone 1).isSome = true ∧
    ((after (.escalationDeadline 255) (at_ 120000 s)).incident 255).map Incident.severity = some .evacuate ∧
    (after (.escalationDeadline 255) (at_ 120000 s)).fire.demand.stair .a = .full := by
  decide +kernel

theorem test_IsolateAndRestore :
    (∀ t ∈ ["1", "3", "65"], site.takes (.isolate (w t)) = true ∧ site.takes (.restore (w t)) = true) ∧
    fields1 (number 1 64) (w "65") = .error 1 ∧ fields1 (number 1 64) (w "3") = .ok 3 ∧ site.zone 3 = none ∧
    fields1 (number 1 64) (w "1") = .ok 1 ∧ site.zone 1 = some Zone.cold ∧
    (∀ st ∈ [ZoneState.normal, .trouble, .confirming, .alarm, .isolated], (zoneIn st none .none none).state = st) ∧
    (zoneIn .isolated none .evac none).signal ≠ .none ∧ (site.regime.active.zone 1).map ZoneEntry.confirmSeconds = some 8 ∧
    fields1 (number 1 64) (w "63") = .ok 63 ∧ (site.regime.active.zone 63).map ZoneEntry.confirmSeconds = some 0 ∧
    replyText (after (.restore (w "63")) (site.setZone 63 (zoneIn .isolated none .evac none))) = "OK RESTORE 63 ALARM" ∧
    replyText (after (.restore (w "1")) (site.setZone 1 (zoneIn .isolated none .evac none))) = "OK RESTORE 1 CONFIRMING" ∧
    ((after (.isolate (w "1")) site).zone 1).map Zone.state = some .isolated := by
  decide +kernel

theorem test_OperatorRequestsOnIncidents :
    let s := burning [fire 255 1 .unaccepted .alert, fire 1 2 .accepted .alert, fire 2 64 .silenced .alert] site
    let sounding := s.setZone 2 (zoneIn .alarm (some .alert) .alert (some 1))
    (∀ t ∈ ["255", "256", "7", "1", "2"], s.takes (.accept (w t)) = true ∧ s.takes (.silence (w t)) = true ∧ s.takes (.close (w t)) = true) ∧
    fields1 (number 1 255) (w "256") = .error 1 ∧ fields1 (number 1 255) (w "7") = .ok 7 ∧ s.incident 7 = none ∧
    fields1 (number 1 255) (w "255") = .ok 255 ∧ s.incident 255 = some (fire 255 1 .unaccepted .alert) ∧
    s.incident 1 = some (fire 1 2 .accepted .alert) ∧ s.incident 2 = some (fire 2 64 .silenced .alert) ∧
    (fire 1 2 .accepted .alert).members = [] ++ ⟨2, 0, false⟩ :: [] ∧ (sounding.zone 2).map Zone.signal = some .alert ∧
    (s.zone 2).map Zone.signal = some .none ∧ s.takes (.manual (w "EVAC")) = true ∧ s.takes (.manual (w "EVACUATE")) = true ∧
    fields1 manualSeverity (w "EVACUATE") = .error 1 ∧ fields1 manualSeverity (w "EVAC") = .ok .evacuate ∧
    8 ≤ (burning eight site).fire.incidents.length ∧ (burning eight.tail site).fire.incidents.length < 8 ∧
    replyText (after (.accept (w "255")) s) = "OK ACCEPT 255 ACCEPTED ALERT" ∧ replyText (after (.silence (w "255")) s) = "NO SILENCE STATE" ∧
    replyText (after (.close (w "1")) sounding) = "NO CLOSE SOUNDING 2" ∧ replyText (after (.close (w "1")) s) = "OK CLOSE 1" ∧
    replyText (after (.manual (w "EVAC")) (burning eight site)) = "NO MANUAL FULL" ∧
    replyText (after (.manual (w "EVAC")) s) = "OK MANUAL 3 EVACUATE" := by
  decide +kernel

theorem test_DemandOfTheOpenIncidents :
    let d := demandOf tower false [fire 1 1 .unaccepted .evacuate]
    d.recallGroups = [1, 2] ∧ d.stairA = .full ∧ d.guardFloors = [1] ∧ d.claims.toList.take 4 = [.alert, .evac, .alert, .alert] ∧
    at1 d.claims 48 = some .alert ∧ at1 d.claims 5 = some .none ∧ d.freeze = true ∧
    (demandOf tower false [fire 1 1 .silenced .evacuate]).claims = Vector.replicate 48 .none ∧
    (fire 1 1 .accepted .alert).band { tower with zones := put1 tower.zones 1 (some { fallbackZone with floors := [1], below := 2, above := 63 }) } =
      some (0, 63) ∧ (fire 1 64 .accepted .alert).band tower = some (63 - (tower.zone 64).elim 0 ZoneEntry.below, 63) ∧
    (fire 1 5 .accepted .alert).band tower = none ∧
    (demandOf tower false []) = Demand.empty := by
  decide +kernel

/-! ### Lift recall and crew service -/

/-- A report: landing, motion, doors, in service, key. -/
def rep (l : Option Nat) (m : Motion) (d : Doors) (i : Bool) (k : CrewKey) : CarReport := ⟨l, m, d, i, k⟩

/-- A car with its link up, last reported at landing 1, closed and stopped. -/
def carIn (sv : Service) (ph : Option Phase) : Car :=
  { Car.fresh 0 with
    linkUp := true, service := sv, report := some (rep (some 1) .stopped .closed true .off), lastLanding := some 1
    target := if ph.isSome then some 0 else none, phase := ph, phaseDeadline := ph.map fun _ => 1000 }

/-- Floor 1 under a host NO-STOP. -/
def guarded (s : State) : State := { s with lift := { s.lift with guards := s.lift.guards.set 1 ⟨false, true, false⟩ } }

/-- A car's service, phase and last abort code after a command. -/
def carAfter (n : Nat) (c : Instr) (s : State) : Option (Service × Option Phase × Option AbortCode) :=
  ((after c s).car n).map fun c => (c.service, c.phase, c.lastAbort.map LastAbort.code)

theorem test_CarReportMovesTheCar :
    let alert := burning [fire 1 1 .accepted .alert] site
    let r := rep (some 1) .stopped .opening true .off
    (∀ x ∈ [Phase.sent, .taken, .travelling, .arrived], (carIn .recalling (some x)).phase = some x ∧ (carIn .recalling (some x)).target = some 0) ∧
    (site.setCar 1 (carIn .crew none)).car 1 = some (carIn .crew none) ∧ (site.setCar 6 (carIn .crew none)).car 6 = some (carIn .crew none) ∧
    r.wellFormed = true ∧ (rep (some 63) .up .closed true .off).wellFormed = true ∧ (rep none .down .closed false .override).wellFormed = true ∧
    r.doors = .opening ∧ (∀ b, (carIn .crew none).report = some b → b.doors ≠ .opening) ∧ r.key ≠ .override ∧ site.lift.latch = none ∧
    (guarded site).barred 1 1 = true ∧ site.barred 1 1 = false ∧ (Car.fresh 0).linkUp = false ∧
    stoppedAt (rep (some 0) .stopped .opened true .off) 0 = true ∧ stoppedAt r 0 = false ∧
    site.recallTarget 1 = some 0 ∧ site.fire.demand.recallGroups.contains 1 = false ∧
    (after (.carReport 1 r) (guarded (site.setCar 1 (carIn .tenant none)))).lift.latch = some ⟨1, 1, .doorsAtNoStop, 0⟩ ∧
    carAfter 1 (.carReport 1 (rep none .up .closed false .off)) (alert.setCar 1 (carIn .homed none)) = some (.out, none, some .carFault) ∧
    carAfter 1 (.carReport 1 (rep none .up .closed true .off)) (alert.setCar 1 (carIn .recalling (some .taken))) =
      some (.recalling, some .travelling, none) ∧
    carAfter 1 (.carReport 1 r) (alert.setCar 1 (carIn .recalling (some .travelling))) = some (.out, none, some .wrongLanding) ∧
    carAfter 1 (.carReport 1 (rep (some 0) .stopped .opened true .off)) (alert.setCar 1 (carIn .recalling (some .travelling))) =
      some (.homed, none, none) ∧
    carAfter 1 (.carReport 1 (rep (some 0) .stopped .opened true .on)) (alert.setCar 1 (carIn .homed none)) = some (.crew, none, none) ∧
    carAfter 1 (.carReport 1 (rep (some 0) .up .closed true .off)) (alert.setCar 1 (carIn .homed none)) = some (.recalling, some .sent, none) ∧
    (after (.carReport 1 (rep none .stopped .closed true .off)) (site.setCar 1 (carIn .crew none))).lift.sent =
      [(1, .callCancelAll), (1, .release)] ∧
    (carIn .homed none).report = some (rep (some 1) .stopped .closed true .off) ∧
    carAfter 1 (.carReport 1 (rep (some 1) .up .opened true .off)) (alert.setCar 1 (carIn .recalling (some .arrived))) = some (.homed, none, none) ∧
    carAfter 1 (.carReport 1 (rep (some 1) .up .closing true .off)) (alert.setCar 1 (carIn .recalling (some .arrived))) =
      some (.recalling, some .travelling, none) := by
  refine ⟨by decide, by decide +kernel, by decide +kernel, by decide, by decide, by decide, rfl, ?_, by decide, by decide +kernel,
    by decide +kernel, by decide +kernel, by decide, by decide, by decide, by decide +kernel, by decide +kernel, by decide +kernel,
    by decide +kernel, by decide +kernel, by decide +kernel, by decide +kernel, by decide +kernel, by decide +kernel, by decide +kernel,
    by decide +kernel, by decide +kernel, by decide +kernel⟩
  rintro b h
  injection h with h
  subst h
  decide

theorem test_identical_and_crew_reports :
    let same := rep (some 1) .stopped .closed true .off
    let faulty : Car := { carIn .homed none with report := some (rep (some 1) .up .closed false .on) }
    let overridden : Car := { carIn .crew none with report := some (rep (some 1) .stopped .closed true .override), calls := [0, 1] }
    let off : Car := { carIn .out none with report := some (rep (some 1) .stopped .closed false .off) }
    carAfter 1 (.carReport 1 (rep (some 1) .up .closed false .on)) (site.setCar 1 faulty) = some (.homed, none, none) ∧
    (after (.carReport 1 same) (site.setCar 1 { carIn .tenant none with linkUp := false })).car 1 =
      some { carIn .tenant none with linkDeadline := some 1000 } ∧
    (after (.carReport 1 (rep (some 1) .stopped .closed true .on)) (guarded (site.setCar 1 overridden))).lift.sent = [(1, .callCancel 1)] ∧
    carAfter 1 (.carReport 1 same) (site.setCar 1 off) = some (.tenant, none, none) := by
  (repeat' apply And.intro) <;> decide +kernel

theorem test_late_arrival_is_a_stop_at_another_landing :
    let sent (ph : Phase) : State := after (.guardSet (w "0 NOSTOP")) (site.setCar 1 (carIn .recalling (some ph)))
    let late (d : Doors) : Instr := .carReport 1 (rep (some 0) .stopped d true .off)
    ((sent .travelling).car 1).map (fun c => (c.target, c.phase, c.late)) = some (some 1, some .sent, some 0) ∧
    carAfter 1 (late .opening) (sent .travelling) = some (.out, none, some .wrongLanding) ∧
    (after (late .opening) (sent .travelling)).lift.sent = [(1, .cancelRecall)] ∧
    ((after (late .opened) (sent .taken)).car 1).map (fun c => (c.phase, c.late)) = some (some .sent, none) ∧
    carAfter 1 (late .opening) (sent .arrived) = some (.recalling, some .sent, none) ∧
    carAfter 1 (late .opening) (site.setCar 1 (carIn .recalling (some .sent))) = some (.recalling, some .sent, none) ∧
    ((after (.orderTaken 1 1) (sent .travelling)).car 1).map (fun c => (c.phase, c.late)) = some (some .arrived, none) := by
  (repeat' apply And.intro) <;> decide +kernel

/-- A car sent to landing 0, at rest in its doorway there with these doors. -/
def near (d : Doors) : Car := { carIn .recalling (some .sent) with report := some (rep (some 0) .stopped d true .off) }

/-- A car sent to landing 0, moving, last at landing 1. -/
def moving : Car := { carIn .recalling (some .sent) with report := some (rep none .down .closed true .off) }

theorem test_OrdersDeadlinesAndAborts :
    (carIn .recalling (some .sent)).target = some 0 ∧ (carIn .recalling (some .sent)).linkUp = true ∧ moving.lastLanding = some 1 ∧
    (carIn .recalling (some .sent)).phaseDeadline = some 1000 ∧ (at_ 999 site).now < 1000 ∧ (carIn .tenant none).linkDeadline = some 1000 ∧
    carAfter 1 (.orderTaken 1 63) (site.setCar 1 (carIn .recalling (some .sent))) = some (.recalling, some .sent, none) ∧
    carAfter 1 (.orderTaken 1 0) (site.setCar 1 (carIn .recalling (some .sent))) = some (.recalling, some .taken, none) ∧
    carAfter 1 (.orderTaken 1 0) (site.setCar 1 (near .closed)) = some (.recalling, some .arrived, none) ∧
    carAfter 1 (.orderTaken 1 0) (site.setCar 1 (near .opened)) = some (.homed, none, none) ∧
    ((after (.orderTaken 1 0) (site.setCar 1 moving)).car 1).map Car.phaseDeadline = some (some 8000) := by
  (repeat' apply And.intro) <;> decide +kernel

theorem test_deadlines_abort_the_car :
    ((after (.orderRefused 1 0 15) (site.setCar 1 (carIn .recalling (some .sent)))).car 1).map Car.lastAbort =
      some (some ⟨.refused, some 15, some 1, 0⟩) ∧
    carAfter 1 (.phaseDeadline 1) (at_ 999 (site.setCar 1 (carIn .recalling (some .sent)))) = some (.recalling, some .sent, none) ∧
    (∀ x ∈ [(Phase.sent, AbortCode.noTake), (.taken, .noStart), (.travelling, .noArrive), (.arrived, .noDoors)],
      carAfter 1 (.phaseDeadline 1) (at_ 1000 (site.setCar 1 (carIn .recalling (some x.1)))) = some (.out, none, some x.2)) ∧
    carAfter 1 (.linkDeadline 1) (at_ 1000 (site.setCar 1 (carIn .crew none))) = some (.out, none, some .linkLost) ∧
    (after (.linkDeadline 1) (at_ 1000 (site.setCar 1 (carIn .crew none)))).lift.sent = [(1, .callCancelAll)] ∧
    carAfter 1 (.linkDeadline 1) (at_ 1000 (site.setCar 1 (carIn .tenant none))) = some (.tenant, none, none) := by
  (repeat' apply And.intro) <;> decide +kernel

theorem test_CallAskIsJudgedInOrder :
    let crew := carIn .crew none
    let full : Car := { crew with calls := [2, 63, 2, 2, 2, 2, 2, 2] }
    let sent (s : State) (l : Nat) := (after (.callAsk 1 l) s).lift.sent
    (Car.fresh 0).linkUp = false ∧ crew.linkUp = true ∧ (carIn .tenant none).service ≠ .crew ∧ 62 ∉ tower.served 1 ∧ 63 ∈ tower.served 1 ∧
    crew.key ≠ .override ∧ full.calls.length = 8 ∧
    sent site 1 = [] ∧ sent (site.setCar 1 (carIn .tenant none)) 1 = [(1, .callDeny 1 .notCrew)] ∧
    sent (site.setCar 1 crew) 62 = [(1, .callDeny 62 .notServed)] ∧ sent (guarded (site.setCar 1 crew)) 1 = [(1, .callDeny 1 .noStop)] ∧
    (after (.callAsk 1 1) (guarded (site.setCar 1 crew))).lift.latch = some ⟨1, 1, .deniedNoStop, 0⟩ ∧
    sent (site.setCar 1 full) 63 = [(1, .callGrant 63)] ∧ sent (site.setCar 1 full) 0 = [(1, .callDeny 0 .full)] ∧
    ((after (.callAsk 1 63) (site.setCar 1 crew)).car 1).map Car.calls = some [63] := by
  decide +kernel

theorem test_GuardRequestsAndLatch :
    let s := site.setCar 1 { carIn .recalling (some .sent) with target := some 1 }
    (rec1 tower.groups 1).isSome = true ∧ (guarded site).recallTarget 1 = some 0 ∧
    (∀ t ∈ ["63 WATCH", "0 NOSTOP", "5 WATCH", "64 WATCH"], site.takes (.guardSet (w t)) = true ∧ site.takes (.guardClr (w t)) = true) ∧
    fields2 (number 0 63) hostMark (w "64 WATCH") = .error 1 ∧ fields2 (number 0 63) hostMark (w "1 STOP") = .error 2 ∧
    fields2 (number 0 63) hostMark (w "5 WATCH") = .ok (5, .watch) ∧ site.regime.active.floor 5 = none ∧
    fields2 (number 0 63) hostMark (w "63 WATCH") = .ok (63, .watch) ∧ (site.regime.active.floor 63).isSome = true ∧
    (s.car 1).map Car.target = some (some 1) ∧ site.takes (.guardlatch []) = true ∧ site.takes (.guardlatch (w "1")) = true ∧
    site.lift.latch = none ∧ replyText (after (.guardSet (w "0 NOSTOP")) site) = "OK GUARD 0 N Y N" ∧
    ((after (.guardSet (w "1 NOSTOP")) s).car 1).map Car.target = some (some 0) ∧
    (after (.guardSet (w "1 NOSTOP")) s).lift.sent = [(1, .recallTo 0)] ∧
    carAfter 1 (.guardSet (w "1 NOSTOP")) (site.setCar 1 { carIn .homed none with target := some 1 }) = some (.recalling, some .sent, none) ∧
    (after (.guardSet (w "1 NOSTOP")) (site.setCar 1 { carIn .crew none with calls := [1, 2] })).lift.sent = [(1, .callCancel 1)] ∧
    carAfter 1 (.guardClr (w "1 NOSTOP")) (guarded (site.setCar 1 { carIn .out none with lastAbort := some ⟨.noSafeLanding, none, none, 0⟩ })) =
      some (.tenant, none, some .noSafeLanding) ∧
    (after (.guardSet (w "0 NOSTOP")) (guarded site)).recallTarget 1 = some 2 ∧
    (after (.guardSet (w "63 NOSTOP")) (after (.guardSet (w "2 NOSTOP")) (after (.guardSet (w "0 NOSTOP")) (guarded site)))).recallTarget 1
      = some 2 ∧
    replyText (after (.guardlatch []) { site with lift := { site.lift with latch := some ⟨1, 63, .watched, 1234⟩ } }) =
      "OK GUARDLATCH 1 63 WATCHED 1.234" := by
  (repeat' apply And.intro) <;> decide +kernel

theorem test_LiftReceiverTakesFramesOnly :
    (AdapterFrame.report ⟨none, .down, .closing, false, .override⟩).wellFormed = true ∧
    (AdapterFrame.report ⟨none, .down, .closing, false, .override⟩).bytes = [0xA5, 1, 0x80, 2, 3, 0, 2, 0xD3] ∧
    (PartFrame.recallTo 63).bytes = [0xA5, 0x41, 63, 0xDB] ∧ readFrame [0xA5, 2, 64, 0x19] = none ∧
    completedBy [0xA5, 2, 0] 0x59 = some [0xA5, 2, 0, 0x59] ∧ readFrame [0xA5, 2, 0, 0x59] = some (.taken 0) ∧
    (site.car 5 = none ∧ (AdapterFrame.taken 64).wellFormed = false) ∧ completedBy [0xA5, 2] 1 = none ∧
    carAfter 1 (.invalidFrame 1 [0x59]) ((site.setCar 1 (carIn .recalling (some .sent))).setRx 1 [0xA5, 2, 0]) = some (.recalling, some .taken, none) ∧
    carAfter 1 (.invalidFrame 1 [0xA5, 2, 0, 0x59]) (site.setCar 1 (carIn .recalling (some .sent))) = some (.recalling, some .taken, none) ∧
    at1 site.lift.rx 6 = some [] ∧ (0xA6 : Byte) ≠ 0xA5 ∧ receiveByte [0xA5] 4 = [0xA5, 4] ∧ receiveByte [0xA5] 5 = [] ∧
    AdapterFrame.wellFormed (.refused 63 15) = true ∧ (AdapterFrame.refused 63 15).bytes = [0xA5, 3, 63, 15, 10] ∧
    at1 (after (.invalidFrame 6 [0xA5, 2, 1]) site).lift.rx 6 = some [0xA5, 2, 1] ∧
    at1 (after (.frameGapTimeout 6) (after (.invalidFrame 6 [0xA5, 2, 1]) site)).lift.rx 6 = some [] := by
  decide +kernel

/-! ### Stair doors -/

/-- A door point in a state, bonded and closed unless said otherwise, commanded as its state has it. -/
def doorIn (st : DoorState) (closed : Bool) : DoorPoint :=
  { DoorPoint.cold with
    state := st, bonded := some closed, closed := some closed
    command := if st = .secure ∨ st = .forced ∨ st = .locking ∨ st = .faultLock then .lock else .release }

/-- The tower with car 1 in group 2, car 2 and door point 3 dropped, car 5 and door point 9 new. -/
def rebuilt : Regime :=
  { tower with
    cars := #v[some 2, none, some 1, some 1, some 1, some 2]
    doors := (tower.doors.set 2 none).set 8 (tower.doors[0]) }

/-- `rebuilt` activated over cars 1 and 2 in CREW, an open door at point 1 and door point 3 waiting to lock. -/
def rebound : State :=
  let s := (site.setCar 1 (carIn .crew none)).setCar 2 (carIn .crew none)
  let s := s.setPoint 1 { doorIn .closeWait false with openSince := some 5 }
  let s := (s.setPoint 3 (doorIn .relockWait true)).enterTrouble (.door 3) .doorFaultLock none
  State.activate { s with door := { s.door with queue := [3] } } rebuilt

theorem test_activation_rebinds_cars_and_doors :
    rebound.fire.incidents = [] ∧
    (rebound.car 1).map Car.service = some .tenant ∧ rebound.car 2 = none ∧ rebound.car 5 = some (Car.fresh 0) ∧
    rebound.lift.sent = [(1, .callCancelAll), (1, .release), (2, .callCancelAll), (2, .release)] ∧
    (rebound.point 1).map DoorPoint.heldDeadline = some (some 120005) ∧ rebound.point 3 = none ∧ rebound.door.queue = [] ∧
    rebound.lockOutput 3 = .release ∧ rebound.event.stands (.door 3) .doorFaultLock = false ∧
    rebound.point 9 = some { DoorPoint.cold with state := .closeWait } := by
  decide +kernel

/-- The state of point `d` after a scan. -/
def scanned (d : Nat) (p : DoorPoint) (b c : Bool) : Option DoorState :=
  (((site.setPoint d p).scanPoint d ⟨b, c⟩).point d).map DoorPoint.state

theorem test_DoorPointFollowsAScan_goodScan :
    let rs : Vector Reading 8 := Vector.replicate 8 ⟨true, true⟩
    at1 site.door.expanders 12 = some Expander.cold ∧ Expander.cold.up = true ∧ site.regime.active.configured 2 = false ∧
    site.regime.active.configured 1 = true ∧ site.regime.active.configured 12 = true ∧ (site.point 96).isSome = true ∧
    (site.setExpander 1 { Expander.cold with up := false, misses := 3 }).releaseDemand 1 = false ∧ site.releaseDemand 1 = false ∧
    State.reset.releaseDemand 1 = true ∧ DoorPoint.cold.openSince = none ∧
    ((after (.goodScan 1 rs) (site.setExpander 1 { Expander.cold with up := false, misses := 3 })).point 8).map DoorPoint.state =
      some .relockWait ∧
    (after (.goodScan 1 rs) (site.setPoint 8 (doorIn .secure true))).heldLock 8 = .lock ∧
    ((after (.goodScan 1 (rs.set 7 ⟨true, false⟩)) (site.setPoint 8 (doorIn .secure true))).point 8).map
      (fun p => (p.state, p.openSince, p.heldDeadline)) = some (.forced, some 0, some 120000) ∧
    (after (.goodScan 1 rs) (site.setExpander 1 { Expander.cold with up := false, misses := 3 })).door.queue = span 1 8 := by
  (repeat' apply And.intro) <;> decide +kernel

theorem test_DoorPointFollowsAScan :
    let written : DoorPoint := { doorIn .locking true with check := some ⟨.lock, none⟩ }
    (site.setPoint 96 written).point 96 = some written ∧ written.check = some ⟨.lock, none⟩ ∧
    (∀ k, (doorIn .secure true).check ≠ some ⟨k, none⟩) ∧
    (∀ st ∈ [DoorState.released, .faultRelease, .secure, .faultLock, .forced, .closeWait, .locking], (doorIn st true).state = st) ∧
    scanned 1 (doorIn .secure true) true false = some .forced ∧ scanned 1 (doorIn .secure true) false true = some .faultLock ∧
    scanned 1 (doorIn .forced false) true true = some .secure ∧ scanned 1 (doorIn .closeWait false) false true = some .relockWait ∧
    scanned 1 (doorIn .locking true) false false = some .closeWait ∧ scanned 1 (doorIn .locking true) true true = some .secure ∧
    scanned 1 (doorIn .faultRelease true) false true = some .released ∧
    (((site.setPoint 96 written).scanPoint 96 ⟨true, true⟩).point 96).map DoorPoint.check = some (some ⟨.lock, some 1500⟩) := by
  (repeat' apply And.intro) <;> first | decide +kernel | exact fun k h => by cases h

theorem test_MissedScansLoseTheExpander :
    let x : Expander := { Expander.cold with misses := 2 }
    let s := (site.setExpander 1 x).setPoint 8 (doorIn .faultLock true)
    at1 (site.setExpander 12 x).door.expanders 12 = some x ∧ site.regime.active.configured 2 = false ∧ site.regime.active.configured 12 = true ∧
    ({ x with up := false } : Expander).up = false ∧ ({ x with misses := 1 } : Expander).misses < 2 ∧ 2 ≤ x.misses ∧ x.up = true ∧
    (∀ d ∈ [1, 8], d ∈ span (8 * 1 - 7) (8 * 1) ∧ (s.point d).isSome = true) ∧
    (at1 (after (.scanMiss 1 true) s).door.expanders 1).map (fun x => (x.up, x.misses)) = some (false, 3) ∧
    ((after (.scanMiss 1 true) s).point 8).map DoorPoint.state = some .noScan ∧
    (after (.scanMiss 1 true) s).event.stands (.expander 1) .expanderLost = true ∧
    (let kept : Expander := { Expander.cold with lastHeard := some 0, held := Vector.replicate 8 .lock }
     at1 (site.setExpander 12 kept).door.expanders (expanderOf 96) = some kept ∧ kept.lastHeard = some 0 ∧ Expander.cold.lastHeard = none ∧
      (at_ 999 (site.setExpander 12 kept)).heldLock 96 = .lock ∧ (at_ 1000 (site.setExpander 12 kept)).heldLock 96 = .release ∧
      site.heldLock 96 = .release) := by
  (repeat' apply And.intro) <;> decide +kernel

/-- Points 1 and 2 in the re-lock queue, 2 open again. -/
def relocking : State :=
  let s := (site.setPoint 1 (doorIn .relockWait true)).setPoint 2 (doorIn .relockWait false)
  { s with door := { s.door with queue := [1, 2], pacing := 500 } }

theorem test_DoorDeadlines :
    let released : DoorPoint := { doorIn .released true with check := some ⟨.release, some 1500⟩ }
    let locking : DoorPoint := { doorIn .locking true with check := some ⟨.lock, some 1500⟩ }
    let ajar : DoorPoint := { doorIn .released false with openSince := some 0, heldDeadline := some 120000 }
    (at_ 499 relocking).now < relocking.door.pacing ∧ relocking.door.pacing ≤ (at_ 500 relocking).now ∧
    1 ∈ relocking.door.queue.take 8 ∧ (relocking.point 1).isSome = true ∧ released.check = some ⟨.release, some 1500⟩ ∧
    locking.check = some ⟨.lock, some 1500⟩ ∧ released.bonded = some true ∧ ({ released with bonded := some false } : DoorPoint).bonded ≠ some true ∧
    ajar.heldDeadline = some 120000 ∧ ajar.openSince = some 0 ∧ site.fire.demand.freeze = false ∧
    (burning [fire 1 1 .accepted .alert] site).fire.demand.freeze = true ∧
    ((after .pacingDeadline (at_ 500 relocking)).point 1).map DoorPoint.state = some .locking ∧
    ((after .pacingDeadline (at_ 500 relocking)).point 2).map DoorPoint.state = some .closeWait ∧
    ((after (.releaseBondCheck 1) (at_ 1500 (site.setPoint 1 released))).point 1).map DoorPoint.state = some .faultRelease ∧
    ((after (.lockBondCheck 1) (at_ 1500 (site.setPoint 1 locking))).point 1).map DoorPoint.state = some .faultLock ∧
    ((after (.heldOpenDeadline 1) (at_ 120000 (site.setPoint 1 ajar))).point 1).map DoorPoint.heldFlag = some true := by
  (repeat' apply And.intro) <;> decide +kernel

/-- Stair A under release. -/
def freed (s : State) : State := { s with fire := { s.fire with demand := { Demand.empty with stairA := .full } } }

theorem test_HostReleaseAndLock :
    (∀ t ∈ ["1", "9", "96", "97", "STAIR A"], site.takes (.release (w t)) = true ∧ site.takes (.lockDoor (w t)) = true) ∧
    (w "96").head? ≠ some stairKeyword ∧ fields1 (number 1 96) (w "97") = .error 1 ∧ fields1 (number 1 96) (w "96") = .ok 96 ∧
    fields1 (number 1 96) (w "9") = .ok 9 ∧ site.point 9 = none ∧ (site.point 96).isSome = true ∧ (freed site).covered 1 = true ∧
    site.covered 1 = false ∧ (∀ t ∈ ["A", "B", "C", "D"], site.takes (.releaseStair (w t)) = true ∧ site.takes (.lockStair (w t)) = true) ∧
    stairFields (stairKeyword :: w "D") = .error 2 ∧ stairFields (stairKeyword :: w "C") = .ok .c ∧ site.stairPoints .b = [] ∧
    site.stairPoints .c = [96] ∧ (site.stairPoints .a).length = 87 ∧ 1 ∈ site.stairPoints .a ∧
    replyText (after (.release (w "1")) (site.setPoint 1 (doorIn .secure true))) = "OK RELEASE 1 RELEASED" ∧
    replyText (after (.lockDoor (w "1")) (freed site)) = "NO LOCK INCIDENT" ∧
    replyText (after (.lockDoor (w "96")) (site.setPoint 96 { doorIn .released true with hostRelease := true })) = "OK LOCK 96 RELOCK-WAIT" ∧
    replyText (after (.releaseStair (w "C")) site) = "OK RELEASE STAIR C 1" ∧
    replyText (after (.lockStair (w "B")) site) = "NO LOCK NOT-FOUND" ∧
    replyText (after (.lockDoor (w "STAIR C")) site) = "OK LOCK STAIR C 0" := by
  (repeat' apply And.intro) <;> decide +kernel

/-! ### Announcements and the live page -/

/-- A programme at a step of its script in a pass. -/
def playing (n k : Nat) : ProgRec :=
  { ProgRec.cold with state := .playing, claims := [1], step := some n, pass := some k, stepAt := some 0, deadline := some 1000 }

/-- A programme that streams clip 5 of bank 1, of 16 000 bytes. -/
def streaming (n k : Nat) : ProgRec := { playing n k with deadline := none, read := some (.streaming 5 1 0 16000) }

/-- A store that holds clips 5 and 6. -/
def clips (s : State) : State :=
  { s with store := { s.store with directory := [⟨5, 1, 1, 16000, 0⟩, ⟨6, 2, 1, 131057, 0⟩], reads := [⟨.alert, 5, 1, .delivering⟩] } }

/-- A programme's step, pass and read after a command. -/
def stepAfter (p : Prog) (c : Instr) (s : State) : Option Nat × Option Nat × Option ClipRead :=
  let r := (after c s).prog p
  (r.step, r.pass, r.read)

theorem test_StepEndsAndTheNextStarts :
    (playing 1 1).deadline = some 1000 ∧ (at_ 999 site).now < 1000 ∧ (streaming 1 1).read = some (.streaming 5 1 0 16000) ∧
    8 * ((at_ 999 site).now - 0) < max (16000 / 2) 1 ∧ max (16000 / 2) 1 ≤ 8 * ((at_ 1000 site).now - 0) ∧ (playing 1 1).step = some 1 ∧
    (playing 1 1).pass = some 1 ∧ (site.scriptOf .evac).steps[1]? = some (.clip 5) ∧ (site.scriptOf .evac).steps.length ≤ 3 ∧
    (site.scriptOf .evac).repeats = 0 ∧ (site.scriptOf .alert).repeats = 2 ∧ (site.scriptOf .alert).steps.length ≤ 2 ∧
    talking.ann.playing.isSome = true ∧
    stepAfter .evac (.stepDeadline .evac) (at_ 1000 (clips (site.setProg .evac (playing 1 1)))) =
      (some 2, some 1, some (.streaming 5 1 1000 16000)) ∧
    stepAfter .evac (.stepDeadline .evac) (at_ 1000 (site.setProg .evac (playing 1 1))) = (some 2, some 1, some (.substituted 5 none)) ∧
    stepAfter .evac (.stepDeadline .evac) (at_ 1000 (site.setProg .evac (playing 3 255))) = (some 1, some 255, none) ∧
    stepAfter .alert (.clipReadEnd .alert) (at_ 1000 (clips (site.setProg .alert (streaming 1 1)))) =
      (some 2, some 1, some (.streaming 6 2 1000 131057)) ∧
    ((after (.stepDeadline .alert) (at_ 1000 (site.setProg .alert (playing 2 2)))).prog .alert).state = .heldSilent ∧
    (after (.stepDeadline .tenant) (at_ 1000 ({ talking with ann := { talking.ann with queue := [] } }.setProg .tenant (playing 1 1)))).ann.playing
      = none ∧
    site.regime.active.presentAzones (notice 255).zones ≠ [] ∧ (notice 255).script.steps[0]? = some (.tone 1 100) ∧
    (after (.stepDeadline .tenant) (at_ 1000 (talking.setProg .tenant (playing 1 1)))).ann.playing =
      some { notice 255 with startedAt := some 1000 } ∧
    (after (.stepDeadline .tenant) (at_ 1000 (talking.setProg .tenant (playing 1 1)))).ann.tenant.claims = [1, 48] := by
  (repeat' apply And.intro) <;> decide +kernel

theorem test_step_reports_a_missing_clip :
    let s := at_ 1000 (site.setProg .evac (playing 1 1))
    let told := at_ 1000 (site.setProg .evac { playing 1 1 with missing := [5] })
    let e : Event := ⟨.fireFault, .clipMissing, 1000, .prog 3, [fNum 5, fWord "ABSENT", fNum 1, fNum 2]⟩
    5 ∉ (playing 1 1).missing ∧ (after (.stepDeadline .evac) s).event.queue = [e] ∧
    (after (.stepDeadline .evac) told).event.queue = [] := by
  decide +kernel

theorem test_TenantRequests :
    let busy : State := { talking with ann := { talking.ann with queue := [notice 1, notice 2, notice 3, notice 4] } }
    (∀ t ∈ ["1,48 1 TONE/1/100", "5 1 GAP/0", "49 1 GAP/0", "1 256 GAP/0", "1 1 TONE/9/100", "1 1"],
      site.takes (.tenant (w t)) = true ∧ talking.takes (.tenant (w t)) = true) ∧
    tenantFields (w "1,48 1 TONE/1/100") = .ok ([1, 48], ⟨[.tone 1 100], 1⟩) ∧ tenantFields (w "5 1 GAP/0") = .ok ([5], ⟨[.gap 0], 1⟩) ∧
    tenantFields (w "49 1 GAP/0") = .error 1 ∧ tenantFields (w "1 256 GAP/0") = .error 2 ∧ tenantFields (w "1 1") = .error 3 ∧
    site.regime.active.presentAzones [5] = [] ∧ site.regime.active.presentAzones [1, 48] = [1, 48] ∧ site.fire.demand.tenantStop = false ∧
    (burning [fire 1 1 .accepted .alert] site).fire.demand.tenantStop = true ∧ talking.ann.playing.isSome = true ∧
    site.ann.playing = none ∧ busy.ann.queue.length = 4 ∧ talking.ann.queue.length < 4 ∧
    (∀ t ∈ ["7", "255", "9", "256"], talking.takes (.tenantCancel (w t)) = true) ∧ fields1 (number 1 255) (w "256") = .error 1 ∧
    9 ∉ talking.ann.tickets ∧ 255 ∈ talking.ann.queue.map Announcement.ticket ∧
    replyText (after (.tenant (w "1,48 1 TONE/1/100")) site) = "OK TENANT 1 0" ∧
    replyText (after (.tenant (w "1,48 1 TONE/1/100")) talking) = "OK TENANT 1 2" ∧
    replyText (after (.tenant (w "1,48 1 TONE/1/100")) busy) = "NO TENANT FULL" ∧
    (after (.tenantCancel (w "7")) (talking.setProg .tenant (playing 1 1))).ann.playing = some { notice 255 with startedAt := some 0 } ∧
    (after (.tenantCancel (w "255")) talking).ann.queue = [] := by
  (repeat' apply And.intro) <;> decide +kernel

/-- A live page to zones 1 and 48 with `n` blocks in its FIFO. -/
def speaking (st : LiveState) (n : Nat) (s : State) : State :=
  { s with live := { LivePage.cold with
      state := st, zones := some [1, 48], fifo := List.replicate n (List.replicate 80 7), startedAt := some 0
      playout := if st = .running then some 10 else none } }

theorem test_LiveRequests :
    (∀ t ∈ ["1,48", "5", "49"], site.takes (.liveStart (w t)) = true ∧ site.takes (.liveZones (w t)) = true) ∧
    fields1 azoneSet (w "49") = .error 1 ∧ fields1 azoneSet (w "5") = .ok [5] ∧ fields1 azoneSet (w "1-4,48") = .ok [1, 2, 3, 4, 48] ∧
    site.regime.active.presentAzones [5] = [] ∧ site.regime.active.presentAzones [1, 2, 3, 4, 48] ≠ [] ∧ site.live.state = .off ∧
    (∀ st ∈ [LiveState.prefill, .running, .killed], (speaking st 0 site).live.state = st) ∧
    site.takes (.liveStop []) = true ∧ site.takes (.liveStop (w "1")) = true ∧
    site.ann.live.state ≠ .heldSilent ∧ (after (.liveStart (w "1,48")) site).ann.live.state = .playing ∧
    (at1 (after (.liveStop []) (quiet (after (.liveStart (w "1,48")) site))).ann.zones 48).map (fun z => (z.holder, z.previous, z.preempted)) =
      some (none, some .live, false) ∧
    replyText (after (.liveStart (w "1,48")) site) = "OK LIVE START 2" ∧ replyText (after (.liveStart (w "5")) site) = "NO LIVE NOT-FOUND" ∧
    replyText (after (.liveZones (w "1")) site) = "NO LIVE STATE" ∧
    (at1 (after (.liveStart (w "1,48")) site).ann.zones 48).map AudioZone.holder = some (some .live) ∧
    (after (.liveStop []) (speaking .running 3 site)).live = LivePage.cold := by
  (repeat' apply And.intro) <;> decide +kernel

/-- `n` samples. -/
def samples (n : Nat) : List Sample := List.replicate n 7

/-- The live record after a command. -/
def liveAfter (c : Instr) (s : State) : LiveState × Nat × Nat := let l := (after c s).live; (l.state, l.fifo.length, l.resyncs)

theorem test_LiveBlocksPlayoutAndResync :
    let late : State := at_ 2000 (speaking .running 0 site)
    let again : State := { late with live := { late.live with resyncs := 1, history := [0] } }
    site.live.gathering.length + (samples 79).length < 80 ∧ site.live.gathering.length + (samples 80).length = 80 ∧
    (speaking .prefill 11 site).live.fifo.length = 11 ∧ (speaking .running 32 site).live.fifo.length = 32 ∧
    (speaking .running 32 site).live.history.length ≤ 2 ∧ again.live.history.getLast? = some 0 ∧ again.now ≤ 0 + 2000 ∧
    again.regime.active.options.liveKill = true ∧ (speaking .running 1 site).live.playout = some 10 ∧ (at_ 9 site).now < 10 ∧
    (after (.blockArrival (samples 79)) site).live.gathering.length = 79 ∧
    liveAfter (.blockArrival (samples 80)) (speaking .prefill 10 site) = (.prefill, 11, 0) ∧
    liveAfter (.blockArrival (samples 80)) (speaking .prefill 11 site) = (.running, 11, 0) ∧
    liveAfter (.blockArrival (samples 80)) (speaking .running 31 site) = (.running, 32, 0) ∧
    liveAfter (.blockArrival (samples 80)) (speaking .running 32 site) = (.running, 12, 1) ∧
    liveAfter .playoutDeadline (at_ 10 (speaking .running 1 site)) = (.running, 0, 0) ∧
    liveAfter .playoutDeadline late = (.prefill, 0, 1) ∧ liveAfter .playoutDeadline again = (.killed, 0, 2) := by
  (repeat' apply And.intro) <;> decide +kernel

/-! ### The clip store -/

/-- An engine state in MAINTENANCE. -/
def engine (e : Engine) : State := maint.setEngine e

/-- An erase of bank 2 block 16 begun at 0. -/
def job : EraseJob := ⟨2, 16, 0, 0, 0, 0⟩

/-- Block 16 of bank 2 LOCKED. -/
def shut (s : State) : State := { s with store := s.store.putBlock 2 16 ⟨true, true, none⟩ }

theorem test_StoreGatesPermitAndLock :
    (∀ c ∈ [Instr.erase (w "2 16"), .write (w "2 16 131071 AB"), .commit (w "127 2 16 1 00000000"), .lockblk (w "2 16"), .permit [],
      .abort [], .erase (w "3 1"), .lockblk (w "1 17"), .permit (w "1"), .write (w "1 1 131071 ABCD"), .commit (w "1 1 16 131057 0")],
      site.takes c = true ∧ maint.takes c = true) ∧
    blockFields (w "2 16") = .ok (2, 16) ∧ blockFields (w "3 1") = .error 1 ∧ blockFields (w "1 17") = .error 2 ∧
    writeFields (w "2 16 131071 AB") = .ok (2, 16, 131071, [0xAB]) ∧ writeFields (w "1 1 131071 ABCD") = .error 3 ∧ writeFields (w "1 1 131071 ABCD 0") = .error 3 ∧
    writeFields (w "1 1 131071 AB 0") = .error 5 ∧
    commitFields (w "127 2 16 1 00000000") = .ok ⟨127, 2, 16, 1, 0⟩ ∧ commitFields (w "1 1 16 131057 0") = .error 4 ∧
    fields0 (w "1") = .error 1 ∧ fields0 [] = .ok () ∧ site.control.mode ≠ .maintenance ∧ (engine (.erasing job)).store.engine ≠ .ready ∧
    maint.store.engine = .ready ∧ maint.store.block 2 16 = some StoreBlock.blank ∧
    replyText (after (.erase (w "2 16")) site) = "NO ERASE NOT-MAINTENANCE" ∧
    replyText (after (.permit []) (engine (.erasing job))) = "NO PERMIT BUSY" ∧ (after (.permit []) maint).store.permit = true ∧
    (after (.lockblk (w "2 16")) maint).store.locked 2 16 = true ∧ replyText (after (.abort []) maint) = "NO ABORT STATE" ∧
    replyText (after (.abort []) (engine (.writing .regime))) = "NO ABORT BUSY" ∧
    (after (.abort []) (engine (.erasing job))).store.lastError = .aborted := by
  (repeat' apply And.intro) <;> decide +kernel

theorem test_EraseRunsAndEnds :
    let reading : State := { clips maint with store := { (clips maint).store with directory := [⟨5, 2, 1, 16, 0⟩], reads := [⟨.alert, 5, 2, .delivering⟩] } }
    maint.takes (.erase (w "2 16")) = true ∧ maint.store.block 2 16 = some StoreBlock.blank ∧
    (shut maint).store.block 2 16 = some ⟨true, true, none⟩ ∧ maint.store.permit = false ∧ (∀ r ∈ maint.store.reads, r.bank ≠ 2) ∧
    (∃ r ∈ reading.store.reads, r.bank = 2) ∧ (reading.store.directory.filter fun e => e.touches 2 16) = [] ∧
    job.erased + ((at_ 599 site).now - job.since) < 600 ∧ 600 ≤ job.erased + ((at_ 600 site).now - job.since) ∧
    maint.store.bytes.wf erasedByte = true ∧ (at_ 19 site).now < 20 ∧
    replyText (after (.erase (w "2 16")) (shut maint)) = "NO ERASE LOCKED" ∧
    replyText (after (.erase (w "1 1")) (clips maint)) = "OK ERASE 1 1 1" ∧
    (after (.erase (w "2 16")) maint).store.engine = .erasing job ∧
    (after (.erase (w "2 16")) reading).store.engine = .suspended job .start none ∧
    (after (.eraseEnd true) (at_ 600 (engine (.erasing job)))).store.engine = .ready ∧
    (after (.eraseEnd true) (at_ 599 (engine (.erasing job)))).store.engine = .erasing job ∧
    (after .storeSettleDeadline (at_ 20 (engine (.suspended job .freeze (some 20))))).store.engine = .suspended job .freeze none := by
  (repeat' apply And.intro) <;> decide +kernel

/-- Bank 1 block 2 holds `31..39` from its byte 16. -/
def recorded : State :=
  { maint with store := { maint.store with bytes := Mem.ofBytes erasedByte 131088 (bytes [49, 50, 51, 52, 53, 54, 55, 56, 57]) } }

theorem test_cold_start_scans_the_clips :
    let s : State := { recorded with store := recorded.store.putBlock 1 2 ⟨false, true, some ⟨5, 9, 0xCBF43926⟩⟩ }
    (after .coldStart s).store.directory = [⟨5, 1, 2, 9, 0xCBF43926⟩] ∧ (after .coldStart recorded).store.directory = [] := by
  decide +kernel

theorem test_write_of_blank_bytes_keeps_a_header :
    let e : DirEntry := ⟨5, 1, 2, 9, 0xCBF43926⟩
    let s : State := { recorded with
      store := { recorded.store.putBlock 1 2 ⟨false, true, some ⟨5, 9, 0xCBF43926⟩⟩ with engine := .writing (.data 1 2 15 [0xFF]) } }
    s.store.bytes.wf erasedByte = true ∧ s.store.bytes.read erasedByte (blockBase 1 2 + 15) = 0xFF ∧
    s.store.headerOf 1 2 = some (5, 9, 0xCBF43926) ∧ (after (.writeComplete true) s).store.headerOf 1 2 = some (5, 9, 0xCBF43926) ∧
    (after .coldStart (after (.writeComplete true) s)).store.directory = [e] ∧
    ({ s.store with bytes := Mem.ofBytes erasedByte 131087 [0] } : ClipStore).headUnwritten 1 2 = false := by
  decide +kernel

theorem test_clip_without_a_sample_takes_a_millisecond :
    let s := site.setProg .evac { playing 1 1 with deadline := none, read := some (.streaming 5 1 0 1) }
    8 * (s.now - 0) < max (1 / 2) 1 ∧ max (1 / 2) 1 ≤ 8 * ((at_ 1 s).now - 0) ∧
    stepAfter .evac (.clipReadEnd .evac) s = (some 1, some 1, some (.streaming 5 1 0 1)) ∧
    stepAfter .evac (.clipReadEnd .evac) (at_ 1 s) = (some 2, some 1, some (.substituted 5 none)) := by
  decide +kernel

theorem test_erase_fails_the_reads_of_its_clips :
    (after (.erase (w "1 1")) ((clips maint).setProg .alert (streaming 1 1))).event.queue =
      [⟨.fireFault, .clipMissing, 0, .prog 2, [fNum 5, fWord "READ-FAILED", fNum 1, fNum 1]⟩] := by
  decide +kernel

/-- A read of bank 1 held while the engine writes. -/
def held (k : WriteJob) : State :=
  let s := clips ((engine (.writing k)).setProg .alert { playing 1 1 with deadline := none, read := some (.waiting 5 1) })
  { s with store := { s.store with reads := [⟨.alert, 5, 1, .waitingWrite⟩] } }

theorem test_WriteAndCommit :
    let e : DirEntry := ⟨5, 1, 2, 9, 0xCBF43926⟩
    maint.takes (.write (w "1 2 131071 00")) = true ∧ (shut maint).store.locked 2 16 = true ∧ maint.store.sound 1 2 = true ∧
    (∀ b ∈ maint.store.readBytes (blockBase 1 2 + 131071) 1, b = 0xFF) ∧ ¬(∀ b ∈ recorded.store.readBytes (blockBase 1 2 + 16) 1, b = 0xFF) ∧
    maint.takes (.commit (w "5 1 2 9 CBF43926")) = true ∧ commitFields (w "5 1 2 9 CBF43926") = .ok e ∧
    crc32 (recorded.store.dataBytes 1 2 9) = e.crc ∧ recorded.store.headBlank 1 2 = true ∧ recorded.store.find 5 = none ∧
    ((clips maint).store.find 5).isSome = true ∧ recorded.store.bytes.wf erasedByte = true ∧
    recorded.store.headerAt (blockBase 1 2) = none ∧ recorded.store.block 1 2 = some StoreBlock.blank ∧
    replyText (after (.write (w "1 2 16 00")) recorded) = "NO WRITE NOT-BLANK" ∧
    (after (.write (w "1 2 131071 00")) maint).store.engine = .writing (.data 1 2 131071 [0]) ∧
    (after (.writeComplete true) (engine (.writing (.data 1 2 131071 [0])))).store.bytes = [(262143, 0)] ∧
    (after (.writeComplete false) (engine (.writing (.data 1 2 131071 [0])))).store.sound 1 2 = false ∧
    (after (.writeComplete false) (held (.data 1 2 131071 [0]))).store.reads = [⟨.alert, 5, 1, .delivering⟩] ∧
    (after (.writeComplete true) (held (.header e))).store.reads = [⟨.alert, 5, 1, .delivering⟩] ∧
    (after (.writeComplete false) (held (.header e))).store.reads = [⟨.alert, 5, 1, .delivering⟩] ∧
    (after (.commit (w "5 1 2 9 CBF43926")) recorded).store.engine = .writing (.header e) ∧
    replyText (after (.commit (w "5 1 2 9 CBF43927")) recorded) = "NO COMMIT CRC" ∧
    (after (.writeComplete true) (recorded.setEngine (.writing (.header e)))).store.directory = [e] ∧
    (after (.writeComplete false) (recorded.setEngine (.writing (.header e)))).store.lastError = .writeFailed := by
  (repeat' apply And.intro) <;> decide +kernel

/-! ### A changed demand -/

/-- A MANUAL incident in a building with a car, a locked door, a tenant announcement and a running erase. -/
def manual : State :=
  let s := ((site.setCar 1 (carIn .tenant none)).setPoint 1 (doorIn .secure true)).setEngine (.erasing job)
  after (.manual (w "EVAC")) { s with ann := talking.ann }

/-- That incident closed. -/
def closed : State := after (.close (w "1")) (quiet manual)

theorem test_DemandChangeIsHandedOut :
    let lit := after (.manual (w "EVAC")) site
    exec (.manual (w "EVAC")) site = .next lit ∧ lit.fire.demand ≠ site.fire.demand ∧
    exec (.close (w "1")) (quiet lit) = .next (after (.close (w "1")) (quiet lit)) ∧
    (after (.close (w "1")) (quiet lit)).fire.demand ≠ (quiet lit).fire.demand := by
  refine ⟨exec_after (by decide +kernel), by decide +kernel, exec_after (by decide +kernel), by decide +kernel⟩

theorem test_demand_moves_cars_and_doors :
    (manual.car 1).map (fun c => (c.service, c.phase, c.target)) = some (.recalling, some .sent, some 0) ∧
    manual.lift.sent.head? = some (1, .recallTo 0) ∧ (manual.point 1).map DoorPoint.state = some .released ∧
    manual.store.engine = .suspended job .freeze (some 20) := by
  decide +kernel

theorem test_demand_moves_announcements :
    manual.ann.playing = none ∧ manual.ann.queue = [] ∧ manual.ann.evac.claims = [1, 2, 3, 4, 48] ∧ manual.zoneOutput 48 = .tones [1000] := by
  decide +kernel

theorem test_demand_starts_a_run :
    let silent := site.setProg .evac { playing 1 1 with state := .heldSilent }
    let e : Event := ⟨.status, .programmeState, 0, .prog 3, [fWord "PLAYING", fNum 1]⟩
    e ∈ manual.event.queue ∧ (manual.ann.evac.step, manual.ann.evac.pass) = (some 1, some 1) ∧
    e ∈ (after (.manual (w "EVAC")) silent).event.queue ∧
    (after (.manual (w "EVAC")) silent).ann.evac.claims = [1, 2, 3, 4, 48] := by
  decide +kernel

theorem test_demand_end_moves_the_units :
    closed.store.engine = .erasing job ∧ (closed.car 1).map (fun c => (c.service, c.target)) = some (.tenant, none) ∧
    (closed.point 1).map DoorPoint.state = some .relockWait ∧ closed.door.queue = [1] ∧ closed.ann.evac.claims = [] ∧
    (at1 closed.ann.zones 48).map (fun z => (z.holder, z.previous, z.preempted)) = some (none, some .evac, false) := by
  decide +kernel

/-! ### The headline statements -/

theorem step_after {c : Instr} {q : List Instr} {s : State} (p : s.pending = c :: q) (h : completes c { s with pending := q } = true) :
    step s = .next (after c { s with pending := q }) := by
  unfold step
  rw [p]
  exact exec_after h

/-- A record of a table of which a check of every row says something. -/
theorem rec1_all {α : Type} {k : Nat} (v : Vector (Option α) k) (P : Option α → Prop) (h : ∀ x ∈ v.toList, P x) (n : Nat) (a : α)
    (g : rec1 v n = some a) : P (some a) := by
  unfold rec1 at1 at g
  split at g
  · simp at g
  · rw [Option.join_eq_some_iff] at g
    exact h _ (Vector.mem_toList_iff.mpr (Vector.mem_of_getElem? g))

theorem at1_all {α : Type} {k : Nat} (v : Vector α k) (P : α → Prop) (h : ∀ x ∈ v.toList, P x) (n : Nat) (a : α)
    (g : at1 v n = some a) : P a := by
  unfold at1 at g
  split at g
  · cases g
  · exact h _ (Vector.mem_toList_iff.mpr (Vector.mem_of_getElem? g))

theorem test_EveryStepKeepsTheRecordLaws :
    site.eventLaw = true ∧ site.troubleLaw = true ∧ site.bufferLaw = true ∧ site.memoryLaw = true ∧
    step site = .next (after .pacingDeadline site) ∧ (relocking.point 1).map DoorPoint.state = some .relockWait ∧ 1 ∈ relocking.door.queue := by
  refine ⟨by decide +kernel, by decide +kernel, by decide +kernel, by decide +kernel, ?_, by decide +kernel, by decide +kernel⟩
  unfold step idle
  rw [show site.pending = [] from rfl, show site.firstDue = some .pacingDeadline by decide +kernel]
  rfl

theorem site_points_cold (m : Mode) (d : Nat) (p : DoorPoint) (h : (mode m site).point d = some p) : p = DoorPoint.cold := by
  have g := rec1_all site.door.points (fun x => x = none ∨ x = some DoorPoint.cold) (by decide +kernel) d p h
  simpa using g

theorem site_points_present (d : Nat) : (site.point d).isSome = (site.regime.active.door d).isSome := by
  have c : ∀ d ∈ List.range 97, (site.point d).isSome = (site.regime.active.door d).isSome := by decide +kernel
  by_cases h : d < 97
  · exact c d (List.mem_range.mpr h)
  · have n : ¬ d - 1 < 96 := by omega
    simp [State.point, Regime.door, rec1, at1, n]

theorem test_EveryStepKeepsTheDoorLaw (m : Mode) :
    (mode m site).doorLaw ∧ (m = .starting → (mode m site).releaseDemand 96 = true) ∧ ((mode m site).point 96).isSome = true := by
  refine ⟨⟨?_, by exact List.nodup_nil, by intro d h; exact absurd h List.not_mem_nil, site_points_present, ?_⟩, ?_, by cases m <;> decide +kernel⟩
  · intro d p h
    have e := site_points_cold m d p h
    subst e
    refine ⟨fun _ => .inl rfl, (fun h => absurd h (by decide)), ?_, (fun c h => absurd h (by simp [DoorPoint.cold])), ?_⟩
    · exact ⟨fun h => absurd h List.not_mem_nil, fun h => by cases h⟩
    · intro x hx up
      have k := at1_all site.door.expanders (fun x => x.up = true) (by decide +kernel) (expanderOf d) x hx
      rw [up] at k; cases k
  · intro _ st; cases st <;> rfl
  · rintro rfl; decide +kernel

/-- The part with a MANUAL incident at EVACUATE and its demand. -/
def alarm : State :=
  let i : Incident := ⟨255, .manual, .accepted, .evacuate, [], 0, some 0, none⟩
  { site with fire := { site.fire with incidents := [i], demand := demandOf tower false [i] } }

theorem site_zones_cold (z : Nat) (r : Zone) (h : site.zone z = some r) : r = Zone.cold := by
  have g := rec1_all site.fire.zones (fun x => x = none ∨ x = some Zone.cold) (by decide +kernel) z r h
  simpa using g

theorem site_zones_present (z : Nat) : (site.zone z).isSome = (site.regime.active.zone z).isSome := by
  have c : ∀ z ∈ List.range 65, (site.zone z).isSome = (site.regime.active.zone z).isSome := by decide +kernel
  by_cases h : z < 65
  · exact c z (List.mem_range.mpr h)
  · have n : ¬ z - 1 < 64 := by omega
    simp [State.zone, Regime.zone, rec1, at1, n]

theorem test_EveryStepKeepsTheIncidentLaws :
    alarm.incidentLaw ∧ alarm.holdLaw ∧ (∃ t, step alarm = .next t ∧ t.fire = alarm.fire) ∧
    (alarm.incident 255).map Incident.severity = some .evacuate := by
  refine ⟨⟨site_zones_present, ?_, ?_, ?_, ?_, ?_, ?_, ?_, ?_⟩, ⟨by decide +kernel, ?_, ?_, ?_⟩, ⟨after .pacingDeadline alarm, ?_, by decide +kernel⟩, by decide +kernel⟩
  · intro z r h a; rw [site_zones_cold z r h] at a; cases a
  · intro z r h _; rw [site_zones_cold z r h]; rfl
  · intro z r h c; rw [site_zones_cold z r h] at c; cases c
  · intro i hi m hm
    have e : i.members = [] := by
      have : i ∈ alarm.fire.incidents := hi
      have c : ∀ x ∈ alarm.fire.incidents, x.members = [] := by decide +kernel
      exact c i this
    rw [e] at hm; cases hm
  · decide +kernel
  · decide +kernel
  · intro i hi j _ m hm
    have c : ∀ x ∈ alarm.fire.incidents, x.members = [] := by decide +kernel
    rw [c i hi] at hm; cases hm
  · decide +kernel
  · intro _; decide +kernel
  · intro _; decide +kernel
  · intro _ job h
    have e : alarm.store.engine = .ready := by decide +kernel
    rw [e] at h; cases h
  · unfold step idle
    rw [show alarm.pending = [] from rfl, show alarm.firstDue = some .pacingDeadline by decide +kernel]
    exact exec_after (by decide +kernel)

/-- The engine about to write the last byte of a block. -/
def writing : State := { engine (.writing (.data 1 2 131071 [0])) with pending := [.writeComplete true] }

theorem test_EveryStepKeepsTheMeterLiftAndStoreLaws :
    writing.meterLaw ∧ writing.liftLaw ∧ writing.storeLaw ∧ writing.store.bytes.wf erasedByte = true ∧
    step writing = .next (after (.writeComplete true) { writing with pending := [] }) ∧
    (after (.writeComplete true) { writing with pending := [] }).store.bytes.read erasedByte 262143 ≠
      writing.store.bytes.read erasedByte 262143 := by
  have chans : ∀ n c, writing.chan n = some c → c = Chan.cold := fun n c h => at1_all writing.sense.chans (· = Chan.cold) (by decide +kernel) n c h
  have cars : ∀ n c, writing.car n = some c → c.service = .tenant ∧ c.calls = [] ∧ c.late = none := fun n c h => by
    have g := rec1_all writing.lift.cars (fun x => ∀ c, x = some c → c.service = .tenant ∧ c.calls = [] ∧ c.late = none)
      (by
        have k : ∀ x ∈ writing.lift.cars.toList, x = none ∨ x = some (Car.fresh 0) := by decide +kernel
        intro x hx c e
        rcases k x hx with r | r <;> rw [r] at e <;> cases e
        exact ⟨rfl, rfl, rfl⟩) n c h
    exact g c rfl
  have e : writing.store.engine = .writing (.data 1 2 131071 [0]) := by decide +kernel
  refine ⟨⟨?_, ?_, ?_, ?_, ?_, by decide +kernel, ?_⟩, ⟨?_, ?_, ?_, ?_⟩, ⟨?_, ?_, ?_, ?_, ?_⟩, by decide +kernel,
    step_after rfl (by decide +kernel), by decide +kernel⟩
  · intro n c m h k; rw [chans n c h] at k; cases k
  · intro n k c d m h _ a; rw [chans n c h] at a; cases a
  · intro n c h; rw [chans n c h]; simp [Chan.cold, Chan.metered]
  · intro n c h k; rw [chans n c h] at k; cases k
  · intro n
    have q : writing.sense.queue = [] := by decide +kernel
    rw [q]
    constructor
    · intro h; cases h
    · rintro ⟨c, h, b⟩; rw [chans n c h] at b; cases b
  · intro h; exact absurd (by decide +kernel) h
  · intro n c h k; rw [(cars n c h).1] at k; cases k
  · intro n c h k; rw [(cars n c h).1] at k; cases k
  · intro n c h _; exact (cars n c h).2.1
  · intro n c h k; rw [(cars n c h).2.2] at k; cases k
  · intro bank block offset bs h
    rw [e] at h; cases h; decide +kernel
  · intro d h; rw [e] at h; cases h
  · intro j c t h; rw [e] at h; cases h
  · rw [e]; refine ⟨fun h => ?_, fun h => by cases h⟩
    have l : writing.regime.load = .idle := by decide +kernel
    rw [l] at h; cases h
  · intro h; rw [e] at h; cases h

theorem test_AudioZonesKeepTheRightHolder_law :
    site.audioLaw ∧ exec (.liveStart (w "1,48")) site = .next (after (.liveStart (w "1,48")) site) ∧
    step { site with pending := [.hello []] } = .next (after (.hello []) { site with pending := [] }) := by
  refine ⟨⟨?_, by decide +kernel, by decide +kernel⟩, exec_after (by decide +kernel), step_after rfl (by decide +kernel)⟩
  intro a z h
  have c := at1_all site.ann.zones (· = AudioZone.cold) (by decide +kernel) a z h
  have none : site.rightHolder a = none := by
    unfold State.rightHolder State.holds
    have i : ∀ p, (site.prog p).state = .idle := by intro p; cases p <;> rfl
    split
    · simp [i]
    · rfl
  rw [c, none]; rfl

/-- EVAC holding audio zone 48 with a tone of these frequencies, or streaming clip 5. -/
def sounding (r : ProgRec) : State :=
  let s := (clips site).setProg .evac r
  { s with ann := { s.ann with zones := put1 s.ann.zones 48 { AudioZone.cold with holder := some .evac } } }

/-- A record that sounds a tone of 500 ms on and 500 ms off from 0 to 1000. -/
def tone (f g : Nat) : ProgRec := { playing 1 1 with voice := some (⟨f, g, 500, 500⟩, 0) }

theorem test_AudioZonesKeepTheRightHolder :
    (at1 (sounding (tone 1000 0)).ann.zones 48).map AudioZone.holder = some (some .evac) ∧
    (at_ 499 (sounding (tone 1000 0))).zoneOutput 48 = .tones [1000] ∧ (at_ 500 (sounding (tone 1000 0))).zoneOutput 48 = .silence ∧
    (sounding (tone 1000 500)).zoneOutput 48 = .tones [1000, 500] ∧ (sounding (tone 0 500)).zoneOutput 48 = .tones [500] ∧
    (sounding (tone 0 0)).zoneOutput 48 = .silence ∧
    (at_ 999 (sounding (streaming 1 1))).zoneOutput 48 = .samples (List.replicate 8 0xFFFF) ∧
    (at_ 1000 (sounding (streaming 1 1))).zoneOutput 48 = .silence ∧
    (sounding { tone 1000 0 with state := .heldSilent }).zoneOutput 48 = .silence ∧
    (site.zoneOutput 48 = .silence ∧ (playing 1 1).voice = none) ∧
    (let s := after (.liveStart (w "1,48")) site
     let run : State := { s with live := { s.live with
       state := .running, playing := some ((List.range 80).map (BitVec.ofNat 16)), playout := some 10 } }
     s.zoneOutput 48 = .silence ∧ run.zoneOutput 48 = .samples [0, 1, 2, 3, 4, 5, 6, 7] ∧
     (at_ 9 run).zoneOutput 48 = .samples [72, 73, 74, 75, 76, 77, 78, 79] ∧ (at_ 10 run).zoneOutput 48 = .silence) := by
  (repeat' apply And.intro) <;> decide +kernel
end Sys2Proof.Tests
end

section
/-! PROOFS. The fire unit's queries (R56, R68, R69): what a request that only reads is answered with, and O10. -/

namespace Sys2Proof.Machine

/-! ### A request that only answers -/

section AnsweredRequest

variable {α : Type} {s : State} {c : Instr} {kw : String} {f : List Text} {parse : List Text → Except Nat α}
  {act : State → α → State}

/-- A request that is taken is in its turn. -/
theorem turn_of_takes (r : requestOf c = some (kw, f)) (h : s.takes c = true) : s.turn kw f = true := by
  simpa [State.takes, r] using h

/-- A request whose act is an `OK` reply reports it and changes nothing else (R200). -/
theorem reports_of_act_ok {a : α} {word : String} {fs : List Field} (r : requestOf c = some (kw, f))
    (x : exec c s = .next (s.request kw f parse act)) (h : s.takes c = true) (p : parse f = .ok a)
    (e : act (s.openRequest kw f) a = (s.openRequest kw f).ok word fs) : s.reports c word fs :=
  ⟨kw, f, r, by rw [x, request_taken (turn_of_takes r h) p, e, ok_open]⟩

/-- A request whose act is a refusal is refused and changes nothing else (R200). -/
theorem refuses_of_act_no {a : α} {reason : String} {detail : List Field} (r : requestOf c = some (kw, f))
    (x : exec c s = .next (s.request kw f parse act)) (h : s.takes c = true) (p : parse f = .ok a)
    (e : act (s.openRequest kw f) a = (s.openRequest kw f).no kw reason detail) : s.refuses c reason detail :=
  ⟨kw, f, r, by rw [x, request_taken (turn_of_takes r h) p, e, no_open]⟩

/-- A request with a bad field is refused with that field's number, whatever its act (R199). -/
theorem refuses_of_bad_field {n : Nat} (r : requestOf c = some (kw, f))
    (x : exec c s = .next (s.request kw f parse act)) (h : s.takes c = true) (p : parse f = .error n) :
    s.refuses c "FIELD" [fNum n] :=
  ⟨kw, f, r, by rw [x, request_field (turn_of_takes r h) p, State.noField, no_open]⟩

end AnsweredRequest

/-- A request without fields fails at field 1 when it has any (R199). -/
theorem fields0_of_ne_nil {f : List Text} (h : f ≠ []) : fields0 f = .error 1 := by
  simp [fields0, noMore, List.length_pos_iff.mpr h]

/-! ### The fire unit while a request is handled -/

@[simp] theorem openRequest_zone (s : State) (kw : String) (f : List Text) (z : Nat) :
    (s.openRequest kw f).zone z = s.zone z := by simp [State.zone]

@[simp] theorem openRequest_incident (s : State) (kw : String) (f : List Text) (id : Nat) :
    (s.openRequest kw f).incident id = s.incident id := by simp [State.incident]

/-! ### ZONE? (R56) -/

section ZoneQuery

variable {s : State} {f : List Text} {z : Nat}

theorem zoneQuery_not_found (h : s.takes (.zoneQuery f) = true) (p : fields1 (number 1 64) f = .ok z)
    (absent : s.zone z = none) : s.refuses (.zoneQuery f) "NOT-FOUND" [] :=
  refuses_of_act_no rfl rfl h p (by simp [absent])

theorem zoneQuery_reports {r : Zone} {e : ZoneEntry} (h : s.takes (.zoneQuery f) = true)
    (p : fields1 (number 1 64) f = .ok z) (record : s.zone z = some r) (entry : s.regime.active.zone z = some e) :
    s.reports (.zoneQuery f) "ZONE" [fNum z, fWord r.state.name, fWord r.signal.name, fFlag r.lineFault,
      (match r.level with
        | some l => fWord l.name
        | none => fNone),
      fOptTime r.confirm, fOptNum r.incident, fTime r.enteredAt, fNum e.group, listField e.floors] :=
  reports_of_act_ok rfl rfl h p (by cases level : r.level <;> simp [record, entry, level])

end ZoneQuery

/-! ### INCIDENTS (R68) -/

theorem incidents_reports {s : State} (h : s.takes (.incidents []) = true) :
    s.reports (.incidents []) "INCIDENTS" (fNum s.fire.incidents.length ::
      s.fire.incidents.map (fun i => [[.num i.id], [i.origin.atom], [.word i.state.name], [.word i.severity.name],
        [.num i.members.length]]) ++
      [listField s.fire.demand.recallGroups, fWord s.fire.demand.stairA.name, fWord s.fire.demand.stairB.name,
        fWord s.fire.demand.stairC.name]) :=
  reports_of_act_ok (a := ()) rfl rfl h rfl (by simp)

/-! ### INCIDENT? (R69) -/

section IncidentQuery

variable {s : State} {f : List Text} {id start : Nat}

theorem incidentQuery_not_found (h : s.takes (.incidentQuery f) = true) (p : incidentFields f = .ok (id, start))
    (absent : s.incident id = none) : s.refuses (.incidentQuery f) "NOT-FOUND" [] :=
  refuses_of_act_no rfl rfl h p (by simp [absent])

theorem incidentQuery_reports {i : Incident} (h : s.takes (.incidentQuery f) = true)
    (p : incidentFields f = .ok (id, start)) (record : s.incident id = some i) :
    s.reports (.incidentQuery f) "INCIDENT" ([fNum id, f1 i.origin.atom, fWord i.state.name, fWord i.severity.name,
      fTime i.openedAt, fOptTime i.acceptedAt, fOptTime i.escalation, fNum i.members.length,
      fSet (i.fireFloors s.regime.active)] ++
      ((i.members.drop (start - 1)).take 8).map fun m =>
        [[.num m.zone], [.time m.joinedAt], [if m.merged then .word "M" else .hyphen]]) :=
  reports_of_act_ok rfl rfl h p (by simp [record])

end IncidentQuery

/-! ### The statement -/

/-- Settles O10: each query is a request whose act, for each outcome of its fields and its lookup, is one reply. -/
theorem fireQueriesReport : Obligations.FireQueriesReport := by
  intro s f
  refine ⟨fun h => ⟨fun k bad => refuses_of_bad_field rfl rfl h bad, fun z good =>
      ⟨zoneQuery_not_found h good, fun r e => zoneQuery_reports h good⟩⟩,
    fun h => ⟨fun extra => refuses_of_bad_field rfl rfl h (fields0_of_ne_nil extra), ?_⟩,
    fun h => ⟨fun k bad => refuses_of_bad_field rfl rfl h bad, fun id start good =>
      ⟨incidentQuery_not_found h good, fun i => incidentQuery_reports h good⟩⟩⟩
  rintro rfl
  exact incidents_reports h

end Sys2Proof.Machine
end

section
/-! PROOFS. The lift unit's queries (R84, R102): the marks of a floor and the record of a car, and O11. -/

namespace Sys2Proof.Machine

/-! ### The lift unit while a request is handled -/

@[simp] theorem openRequest_guard (s : State) (kw : String) (f : List Text) (n : Nat) :
    (s.openRequest kw f).lift.guard n = s.lift.guard n := by simp [openRequest_eq, LiftUnit.guard]

@[simp] theorem openRequest_car (s : State) (kw : String) (f : List Text) (n : Nat) :
    (s.openRequest kw f).car n = s.car n := by simp [openRequest_eq, State.car]

@[simp] theorem openRequest_carGroup (s : State) (kw : String) (f : List Text) (n : Nat) :
    (s.openRequest kw f).carGroup n = s.carGroup n := by simp [State.carGroup]

/-! ### GUARD? (R84) -/

section GuardQuery

variable {s : State} {f : List Text} {n : Nat}

theorem guardQuery_not_found (h : s.takes (.guardQuery f) = true) (p : fields1 (number 0 63) f = .ok n)
    (absent : s.regime.active.floor n = none) : s.refuses (.guardQuery f) "NOT-FOUND" [] :=
  refuses_of_act_no rfl rfl h p (by simp [absent])

theorem guardQuery_reports {fl : Floor} (h : s.takes (.guardQuery f) = true)
    (p : fields1 (number 0 63) f = .ok n) (entry : s.regime.active.floor n = some fl) :
    s.reports (.guardQuery f) "GUARD" [fNum n, fFlag (s.lift.guard n).incident, fFlag (s.lift.guard n).host,
      fFlag (s.lift.guard n).watch, fOptNum (fl.landing 1), fOptNum (fl.landing 2)] :=
  reports_of_act_ok rfl rfl h p (by simp [entry])

end GuardQuery

/-! ### CAR? (R102) -/

section CarQuery

variable {s : State} {f : List Text} {n : Nat}

theorem carQuery_not_found (h : s.takes (.carQuery f) = true) (p : fields1 (number 1 6) f = .ok n)
    (absent : s.car n = none) : s.refuses (.carQuery f) "NOT-FOUND" [] :=
  refuses_of_act_no rfl rfl h p (by simp [absent])

theorem carQuery_reports {c : Car} (h : s.takes (.carQuery f) = true) (p : fields1 (number 1 6) f = .ok n)
    (record : s.car n = some c) : s.reports (.carQuery f) "CAR" (fNum n :: c.fields (s.carGroup n)) :=
  reports_of_act_ok rfl rfl h p (by simp [record])

/-- The reply fields of `CAR?`, written out as R102 lists them. -/
theorem car_fields_eq (c : Car) (n group : Nat) : fNum n :: c.fields group =
    [fNum n, fNum group, fWord (if c.linkUp then "UP" else "LOST"), fWord c.service.name] ++
      (match c.report with
        | none => [fNone, fNone, fNone, fNone, fNone]
        | some r => [(match r.landing with
            | none => fWord "BETWEEN"
            | some l => fNum l),
            fWord (motionName r.motion), fWord (doorsName r.doors), fFlag r.inService, fWord (crewKeyName r.key)]) ++
      [fOptNum c.lastLanding, fOptNum c.target,
        (match c.phase with
          | none => fNone
          | some p => fWord p.name),
        fOptTime c.phaseDeadline, listField c.calls, fFlag c.keyIgnored] ++
      (match c.lastAbort with
        | none => [fNone, fNone, fNone, fNone]
        | some a => [fWord a.code.name, fOptNum a.reason, fOptNum a.landing, fTime a.time]) := by
  unfold Car.fields reportFields
  cases c.report <;> cases c.lastAbort <;> rfl

end CarQuery

/-! ### The statement -/

/-- Settles O11: each query is a request whose act, for each outcome of its fields and its lookup, is one reply. -/
theorem liftQueriesReport : Obligations.LiftQueriesReport := by
  intro s f
  refine ⟨fun h => ⟨fun k bad => refuses_of_bad_field rfl rfl h bad, fun n good =>
      ⟨guardQuery_not_found h good, fun fl => guardQuery_reports h good⟩⟩,
    fun h => ⟨fun k bad => refuses_of_bad_field rfl rfl h bad, fun n good =>
      ⟨carQuery_not_found h good, fun c record => ?_⟩⟩⟩
  have reported := carQuery_reports h good record
  rw [car_fields_eq] at reported
  exact reported

end Sys2Proof.Machine
end

section
/-! PROOFS. The door unit's queries (R120, R121): the record of a door point and the counts of a stair, and O12. -/

namespace Sys2Proof.Machine

/-! ### The door unit while a request is handled -/

section OpenRequest

variable (s : State) (kw : String) (f : List Text)

@[simp] theorem openRequest_point (d : Nat) : (s.openRequest kw f).point d = s.point d := by simp [State.point]

@[simp] theorem openRequest_releaseDemand (d : Nat) :
    (s.openRequest kw f).releaseDemand d = s.releaseDemand d := by simp [State.releaseDemand, State.covered]

@[simp] theorem openRequest_relockPlace (d : Nat) : (s.openRequest kw f).relockPlace d = s.relockPlace d := by
  simp [State.relockPlace]

@[simp] theorem openRequest_doorPlace (d : Nat) : (s.openRequest kw f).doorPlace d = s.doorPlace d := by
  simp [State.doorPlace]

@[simp] theorem openRequest_stairPoints (st : Stair) : (s.openRequest kw f).stairPoints st = s.stairPoints st := by
  simp [State.stairPoints]

@[simp] theorem openRequest_hostReleased : (s.openRequest kw f).hostReleased = s.hostReleased := by
  funext d
  simp [State.hostReleased]

@[simp] theorem openRequest_inDoorState (st : DoorState) : (s.openRequest kw f).inDoorState st = s.inDoorState st := by
  funext d
  simp [State.inDoorState]

end OpenRequest

/-! ### DOOR? (R120) -/

/-- The first two fields of a present point's record are its stair and its floor, a hyphen for a door at no floor. -/
theorem doorPlace_fields {s : State} {d : Nat} {e : DoorEntry} (entry : s.regime.active.door d = some e) :
    (s.doorPlace d).map f1 = [fWord e.stair.name, fOptNum e.floor] := by
  cases floor : e.floor <;> simp [State.doorPlace, entry, floor, fWord, fOptNum, fNum]

section DoorQuery

variable {s : State} {f : List Text} {d : Nat}

theorem doorQuery_not_found (h : s.takes (.doorQuery f) = true) (p : fields1 (number 1 96) f = .ok d)
    (absent : s.point d = none) : s.refuses (.doorQuery f) "NOT-FOUND" [] :=
  refuses_of_act_no rfl rfl h p (by simp [absent])

theorem doorQuery_reports {r : DoorPoint} {e : DoorEntry} {x : Expander} (h : s.takes (.doorQuery f) = true)
    (p : fields1 (number 1 96) f = .ok d) (record : s.point d = some r) (entry : s.regime.active.door d = some e)
    (expander : at1 s.door.expanders (expanderOf d) = some x) :
    s.reports (.doorQuery f) "DOOR" [fNum d, fWord e.stair.name, fOptNum e.floor, fFlag e.reentry,
      fNum (expanderOf d), fWord (if x.up then "UP" else "LOST"), fWord r.state.name, fWord r.command.name,
      readingField "BONDED" "UNBONDED" r.bonded, readingField "CLOSED" "OPEN" r.closed, fFlag r.hostRelease,
      fFlag (s.releaseDemand d), fOptNum (s.relockPlace d), fOptTime r.openSince, fFlag r.heldFlag] :=
  reports_of_act_ok rfl rfl h p (by simp [record, entry, expander, doorPlace_fields entry])

end DoorQuery

/-! ### STAIR? (R121) -/

theorem stairQuery_reports {s : State} {f : List Text} {st : Stair} (h : s.takes (.stairQuery f) = true)
    (p : fields1 stairWord f = .ok st) :
    s.reports (.stairQuery f) "STAIR" [fWord st.name, fWord (s.fire.demand.stair st).name,
      fNum (s.stairPoints st).length, fNum ((s.stairPoints st).filter s.hostReleased).length,
      stairCountOrder.map fun ds => [.num ((s.stairPoints st).filter (s.inDoorState ds)).length],
      fNum s.door.queue.length] :=
  reports_of_act_ok rfl rfl h p (by simp)

/-! ### The statement -/

/-- Settles O12: each query is a request whose act, for each outcome of its fields and its lookup, is one reply. -/
theorem doorQueriesReport : Obligations.DoorQueriesReport := by
  intro s f
  exact ⟨fun h => ⟨fun k bad => refuses_of_bad_field rfl rfl h bad, fun d good =>
      ⟨doorQuery_not_found h good, fun p e x => doorQuery_reports h good⟩⟩,
    fun h => ⟨fun k bad => refuses_of_bad_field rfl rfl h bad, fun st => stairQuery_reports h⟩⟩

end Sys2Proof.Machine
end

section
/-! PROOFS. The announcement unit's and the live unit's queries (R136, R137, R145, R156): an audio zone, a programme, the tenant queue, the live
page, and O13. -/

namespace Sys2Proof.Machine

/-! ### The announcement unit while a request is handled -/

@[simp] theorem openRequest_prog (s : State) (kw : String) (f : List Text) (p : Prog) :
    (s.openRequest kw f).prog p = s.prog p := by cases p <;> simp [State.prog]

@[simp] theorem openRequest_scriptOf (s : State) (kw : String) (f : List Text) (p : Prog) :
    (s.openRequest kw f).scriptOf p = s.scriptOf p := by cases p <;> simp [State.scriptOf]

@[simp] theorem openRequest_repeatField (s : State) (kw : String) (f : List Text) (p : Prog) :
    (s.openRequest kw f).repeatField p = s.repeatField p := by simp [State.repeatField]

/-! ### AZONE? (R136) -/

section FloorOfAzone

variable {r : Regime} {a : Nat}

/-- The floor found for an audio zone is present and names it. -/
theorem floor_of_floorOfAzone {n : Nat} (found : r.floorOfAzone a = some n) :
    ∃ fl, r.floor n = some fl ∧ fl.audioZone = some a := by
  have test := List.find?_some found
  split at test
  · cases test
  · next fl entry => exact ⟨fl, entry, by simpa using test⟩

/-- An audio zone for which no floor is found is named by no present floor. -/
theorem audioZone_ne_of_floorOfAzone {n : Nat} {fl : Floor} (missing : r.floorOfAzone a = none)
    (entry : r.floor n = some fl) : fl.audioZone ≠ some a := by
  have small : n < 64 := by
    by_contra large
    simp [Regime.floor, Vector.getElem?_eq_none (Nat.le_of_not_lt large)] at entry
  have test := List.find?_eq_none.mp missing n (List.mem_range.mpr small)
  rw [Regime.floor] at entry
  simpa [entry] using test

end FloorOfAzone

/-- The floor field of `AZONE?`: the floor that names the audio zone, `REST` where none does. -/
def Regime.azoneFloor (r : Regime) (a : Nat) : Field := (r.floorOfAzone a).elim (fWord "REST") fNum

theorem azoneFloor_spec (r : Regime) (a : Nat) :
    (∃ n fl, r.floor n = some fl ∧ fl.audioZone = some a ∧ r.azoneFloor a = fNum n) ∨
      ((∀ n fl, r.floor n = some fl → fl.audioZone ≠ some a) ∧ r.azoneFloor a = fWord "REST") := by
  unfold Regime.azoneFloor
  cases place : r.floorOfAzone a with
  | some n =>
    obtain ⟨fl, entry, names⟩ := floor_of_floorOfAzone place
    exact .inl ⟨n, fl, entry, names, rfl⟩
  | none => exact .inr ⟨fun _ _ => audioZone_ne_of_floorOfAzone place, rfl⟩

section AzoneQuery

variable {s : State} {f : List Text} {a : Nat} {z : AudioZone}

theorem azoneQuery_reports_absent (h : s.takes (.azoneQuery f) = true) (p : fields1 (number 1 48) f = .ok a)
    (record : at1 s.ann.zones a = some z) (absent : s.regime.active.azonePresent a = false) :
    s.reports (.azoneQuery f) "AZONE" ([fNum a, fFlag false] ++ List.replicate 8 fNone) :=
  reports_of_act_ok rfl rfl h p (by simp [record, absent, List.replicate])

theorem azoneQuery_reports_present (h : s.takes (.azoneQuery f) = true) (p : fields1 (number 1 48) f = .ok a)
    (record : at1 s.ann.zones a = some z) (present : s.regime.active.azonePresent a = true) :
    s.reports (.azoneQuery f) "AZONE" [fNum a, fFlag true, s.regime.active.azoneFloor a,
      fWord ((at1 s.fire.demand.claims a).getD .none).name,
      wordsField (([Prog.live, .evac, .alert, .tenant].filter fun p => (s.prog p).claims.contains a).map progName),
      progField z.holder,
      (match z.holder with
        | some p => fWord (s.prog p).state.name
        | none => fNone),
      progField z.previous, fFlag z.preempted, fTime z.heldSince] :=
  reports_of_act_ok rfl rfl h p (by
    cases place : s.regime.active.floorOfAzone a <;> cases holder : z.holder <;>
      simp [record, present, Regime.azoneFloor, place, holder])

end AzoneQuery

/-! ### PROG? (R137) -/

/-- The repeat count is present while the programme plays a pass of its script. -/
theorem repeatField_eq (s : State) (p : Prog) :
    s.repeatField p = if (s.prog p).pass.isSome then fNum (s.scriptOf p).repeats else fNone := by
  unfold State.repeatField
  cases (s.prog p).pass <;> rfl

theorem progQuery_reports {s : State} {f : List Text} {p : Prog} (h : s.takes (.progQuery f) = true)
    (good : fields1 progWord f = .ok p) :
    s.reports (.progQuery f) "PROG" ([fWord (progName p), fWord (s.prog p).state.name, fNum (s.prog p).claims.length,
      fSet (s.prog p).claims, fOptNum (s.prog p).step,
      (match (s.prog p).step.bind fun n => (s.scriptOf p).steps[n - 1]? with
        | none => fNone
        | some st => fWord st.kindName),
      fOptNum (s.prog p).pass, s.repeatField p, fOptTime (s.prog p).stepAt] ++
      readFields (s.prog p).read ++ [listField (s.prog p).missing]) :=
  reports_of_act_ok rfl rfl h good (by
    cases step : (s.prog p).step with
    | none => simp [step]
    | some n => cases kind : (s.scriptOf p).steps[n - 1]? <;> simp [step, kind])

/-! ### TENANT? (R145) -/

section TenantQuery

variable {s : State} {f : List Text} {t : Nat}

theorem tenantQuery_reports_queue (h : s.takes (.tenantQuery f) = true) (p : fieldsOpt (number 1 255) f = .ok none) :
    s.reports (.tenantQuery f) "TENANT" [fFlag s.fire.demand.tenantStop, fOptNum (s.ann.playing.map Announcement.ticket),
      fOptNum s.ann.tenant.step, fOptNum s.ann.tenant.pass, fNum s.ann.queue.length,
      listField (s.ann.queue.map Announcement.ticket), fNum s.ann.nextTicket] :=
  reports_of_act_ok rfl rfl h p (by cases queue : s.ann.queue <;> simp [queue, listField, Function.comp_def])

theorem tenantQuery_not_found (h : s.takes (.tenantQuery f) = true) (p : fieldsOpt (number 1 255) f = .ok (some t))
    (absent : s.ann.find t = none) : s.refuses (.tenantQuery f) "NOT-FOUND" [] :=
  refuses_of_act_no rfl rfl h p (by simp [absent])

theorem tenantQuery_reports_announcement {a : Announcement} {k : Nat} (h : s.takes (.tenantQuery f) = true)
    (p : fieldsOpt (number 1 255) f = .ok (some t)) (record : s.ann.find t = some (a, k)) :
    s.reports (.tenantQuery f) "TENANT" (a.fields k) :=
  reports_of_act_ok rfl rfl h p (by simp [record])

end TenantQuery

/-! ### LIVE? (R156) -/

theorem liveQuery_reports {s : State} (h : s.takes (.liveQuery []) = true) :
    s.reports (.liveQuery []) "LIVE" [fWord s.live.state.name,
      (match s.live.zones with
        | none => fNone
        | some zs => fSet zs),
      (match s.live.zones with
        | none => fNum 0
        | some zs => fNum (s.regime.active.presentAzones zs).length),
      fNum s.live.fifo.length, fOptTime s.live.startedAt, fNum s.live.resyncs, timesField s.live.history,
      fWord (if s.regime.active.options.liveKill then "ON" else "OFF")] :=
  reports_of_act_ok (a := ()) rfl rfl h rfl (by
    cases zones : s.live.zones <;> simp [zones, Regime.presentAzones])

/-! ### The statement -/

/-- Settles O13: each query is a request whose act, for each outcome of its fields and its lookup, is one reply. -/
theorem audioQueriesReport : Obligations.AudioQueriesReport := by
  refine ⟨fun s f => ⟨fun h => ⟨fun k bad => refuses_of_bad_field rfl rfl h bad, fun a z good record =>
      ⟨azoneQuery_reports_absent h good record, fun present =>
        ⟨_, azoneFloor_spec _ a, azoneQuery_reports_present h good record present⟩⟩⟩,
    fun h => ⟨fun k bad => refuses_of_bad_field rfl rfl h bad, fun p good => ?prog⟩,
    fun h => ⟨fun k bad => refuses_of_bad_field rfl rfl h bad, tenantQuery_reports_queue h, fun t good =>
      ⟨tenantQuery_not_found h good, fun a k => tenantQuery_reports_announcement h good⟩⟩⟩,
    fun s f h => ⟨fun extra => refuses_of_bad_field rfl rfl h (fields0_of_ne_nil extra), ?live⟩⟩
  case prog =>
    rw [← repeatField_eq]
    exact progQuery_reports h good
  case live =>
    rintro rfl
    exact liveQuery_reports h

end Sys2Proof.Machine
end
